-- ==== Sys2Proof/Word.lean ====
section
/-! DEFINITION. Bytes, times and the plainest arithmetic the other files share. -/

namespace Sys2Proof

/-- A byte of a frame (12, R182). -/
abbrev Byte := BitVec 8

/-- A time given in ms, as the clock counts it, in µs (00_scope.md, "Units"). -/
def ms (n : Nat) : Nat := n * 1000

/-- "Clamped to a..b" of 00_scope.md, "Arithmetic". -/
def clampTo (lo hi x : Nat) : Nat := if x < lo then lo else if hi < x then hi else x

/-- A table of fixed size, read at an index. -/
def look {α : Type} {n : Nat} (t : Vector α n) (i : Fin n) : α := t[i.val]

/-- A table of fixed size, with one entry replaced. -/
def put {α : Type} {n : Nat} (t : Vector α n) (i : Fin n) (x : α) : Vector α n := t.set i.val x

end Sys2Proof
end

