-- ==== Sys2Proof/Syntax.lean ====
section
/-! DEFINITION. The names the commands use, and the commands: one constructor of Instr for each row of
spec/opcode_table.json. -/

namespace Sys2Proof

/-- The five apertures, in the order of 00_scope.md. -/
inductive Aperture where | fl | fr | rl | rr | tg
deriving DecidableEq, Repr

/-- The four side doors, each with a window. -/
inductive Door where | fl | fr | rl | rr
deriving DecidableEq, Repr

/-- The rear doors, each with a child lock. -/
inductive Rear where | rl | rr
deriving DecidableEq, Repr

/-- The front doors, each with a rocker and two pads. -/
inductive Front where | fl | fr
deriving DecidableEq, Repr

/-- The four touch pads (03, R46). -/
inductive Pad where | flUnlock | flLock | frUnlock | frLock
deriving DecidableEq, Repr

/-- Rocker positions (03, R45). -/
inductive RockerPos where | neutral | lock | unlock
deriving DecidableEq, Repr

/-- Window switch positions: NEUTRAL, OPEN, OPEN_AUTO, CLOSE, CLOSE_AUTO (03, R48). -/
inductive SwitchPos where | neutral | opening | openAuto | closing | closeAuto
deriving DecidableEq, Repr

/-- The seven window switches: four on the driver pack, one in each rear door, and the front passenger
door switch, whose window the driver side decides (03, R48). -/
inductive WinSwitch where
  | pack (d : Door)
  | rearDoor (r : Rear)
  | passenger
deriving DecidableEq, Repr

/-- The fourteen triggers by index (07, R123). -/
inductive Trigger where
  | crash | fobLock | fobUnlock | fobTailgate | fobCloseAll | fobOpenAll | passiveUnlock
  | passiveLock | passiveTailgate | insideLock | insideUnlock | speedLock | autoRelock | linkFire
deriving DecidableEq, Repr

/-- The qualified inputs (03, R45); a switch pair is one input. -/
inductive Input where
  | pair (a : Aperture)
  | childSwitch (r : Rear)
  | ajar (a : Aperture)
  | handle (d : Door)
  | rocker (f : Front)
  | childButton
  | tailgateButton
  | pad (p : Pad)
  | windowSwitch (w : WinSwitch)
  | crashLine
deriving DecidableEq, Repr

/-- A raw level that changes (03, R44, R45). TG has no deadlock switch. A rocker has two contacts. A window
switch's combination that matches no position is `none` (03, R48). -/
inductive RawChange where
  | lockSwitch (a : Aperture) (made : Bool)
  | deadlockSwitch (d : Door) (made : Bool)
  | childSwitch (r : Rear) (on : Bool)
  | ajar (a : Aperture) (isOpen : Bool)
  | handle (d : Door) (pulled : Bool)
  | rocker (f : Front) (lockMade unlockMade : Bool)
  | childButton (pressed : Bool)
  | tailgateButton (pressed : Bool)
  | pad (p : Pad) (contact : Bool)
  | windowSwitch (w : WinSwitch) (pos : Option SwitchPos)
  | crashLine (asserted : Bool)
deriving DecidableEq, Repr

/-- The commands. A host request is a valid request frame of its command, with its payload's fields as the
bytes and numbers of 12, R184 (so a code may be unknown). `Byte` operands are codes or one-byte numbers. -/
inductive Instr where
  -- Device, vehicle, attention and settings requests
  | deviceStatus
  | deviceStatusClear
  | reset
  | park
  | vehicleState (speed : BitVec 16) (powerMode : Byte)
  | attentionRead
  | attentionMask (mask : BitVec 16)
  | settingsRead
  | settingsWrite (driverSide autoLock speedThreshold stagedWindow relockDelay retainedPower silenceExp : Byte)
  -- Key requests
  | keyLookup (slot : Byte)
  | keyFind (identity : BitVec 32)
  | keyEnroll (slot : Byte) (identity : BitVec 32) (secret : BitVec 128) (role : Byte) (counter : BitVec 24)
      (unlockMode passiveEntry comfortWindows : Byte)
  | keyProfile (slot unlockMode passiveEntry comfortWindows : Byte)
  | keyRole (slot role : Byte)
  | keySuspend (slot : Byte)
  | keyResume (slot : Byte)
  | keyRevoke (slot : Byte)
  | enrollOpen
  -- Aperture and window requests
  | apertureRead (aperture : Byte)
  | apertureCommandLock (aperture : Byte)
  | apertureCommandUnlock (aperture : Byte)
  | apertureCommandDeadlock (aperture : Byte)
  | apertureCommandChildOn (aperture : Byte)
  | apertureCommandChildOff (aperture : Byte)
  | apertureCommandTailgateRelease (aperture : Byte)
  | apertureCommandWindowOpen (aperture : Byte)
  | apertureCommandWindowClose (aperture : Byte)
  | apertureCommandWindowTo (aperture percent : Byte)
  | windowStop (aperture : Byte)
  | windowSetup (window threshold autoClose : Byte)
  | windowRelearn (window : Byte)
  -- Chain requests
  | stepRead (index : Byte)
  | stepWrite (index action apertureSet argument minRole flags next : Byte)
  | triggerRead (index : Byte)
  | triggerWrite (index start priority staging holdToRun : Byte) (cancelSet : BitVec 16)
  | chainsDefault
  | triggerFire (start priority origin : Byte)
  | runStatus
  | runResolveRetry (trigger : Byte)
  | runResolveAbandon (trigger : Byte)
  | clearCrash
  -- Transactions told as such: `clocked` is how many bytes the host clocks after READ; `bytes` is every
  -- byte of the transaction, its command byte first
  | read (clocked : Nat)
  | badFrameReply (bytes : List Byte)
  | overrun (bytes : List Byte)
  -- Resets: `lowest` is the lowest supply, in mV, of the dip so far
  | powerOnReset
  | lowVoltageReset (lowest : Nat)
  -- Record Store
  | scanComplete
  | storeWriteStart
  | storeWriteComplete
  -- Entry Unit
  | rfFrameArrival (burst : List Byte)
  | frameTake
  | searchStart
  | challengeEnd
  | searchComplete
  | enrollWindowExpiry
  -- Input Qualifier
  | rawInputChange (change : RawChange)
  | qualificationTimeExpiry (input : Input)
  | deferredRequestTake
  | supplyMeasurement (millivolts : Nat)
  -- Latch Units
  | latchHeldStart (a : Aperture)
  | latchDriveLimit (a : Aperture)
  | releasePulseEnd
  | releaseIntervalEnd
  -- Window Units: `gap` is the time in µs from the window's last accepted edge or, for the first edge of a
  -- run, from its motor start
  | hallEdge (d : Door) (gap : Nat)
  | stallTimeout (d : Door)
  | noPulses (d : Door)
  | runLimit (d : Door)
  | coastEnd (d : Door)
  | motorStart (d : Door)
  -- Timers
  | retainedPowerExpiry
  | speedStale
  | silenceTimerExpiry
  | relockTimerExpiry
  | continuePointExpiry (t : Trigger)
  | holdTimerExpiry (t : Trigger)
  | pauseEnd
  | engineChoice
  | partRestart
deriving DecidableEq, Repr

end Sys2Proof
end

