-- ==== Sys2Proof/Decode.lean ====
section
/-! DEFINITION. The decoder: no row of spec/opcode_table.json gives any bits, so no word spells a command. -/

namespace Sys2Proof

/-- The command that a word of `nbits` bits spells by the table's bits: none, for the table gives none. -/
def decodeTableWord (_nbits _w : Nat) : Option Instr := none

end Sys2Proof
end

