-- ==== Sys2Proof/Machine/State.lean ====
section
/-! DEFINITION. The state of the part, all of it plain data, and the state after reset. -/

namespace Sys2Proof.Machine

open Sys2Proof

/-- The reasons a step could stop with a fault: none. No rule of the spec lets the part stop; what the spec
calls a fault (JAM, PINCH, ...) is a value of a record. -/
inductive Fault where
deriving DecidableEq, Repr

/-- The reasons a step could be refused. -/
inductive Refusal where
  /-- Raised by an arm of exec for a row that has no meaning yet; safe. No arm raises it. -/
  | notModelled (mnemonic : String)
deriving DecidableEq, Repr

/-! ### Small tables -/

/-- One value for each aperture. -/
structure Five (α : Type) where
  fl : α
  fr : α
  rl : α
  rr : α
  tg : α
deriving DecidableEq, Repr

/-- One value for each side door. -/
structure Four (α : Type) where
  fl : α
  fr : α
  rl : α
  rr : α
deriving DecidableEq, Repr

/-- One value for each rear door. -/
structure Rears (α : Type) where
  rl : α
  rr : α
deriving DecidableEq, Repr

/-- One value for each front door. -/
structure Fronts (α : Type) where
  fl : α
  fr : α
deriving DecidableEq, Repr

/-- The same value at every aperture. -/
def Five.all {α : Type} (x : α) : Five α := ⟨x, x, x, x, x⟩
/-- The same value at every side door. -/
def Four.all {α : Type} (x : α) : Four α := ⟨x, x, x, x⟩

/-- The value at an aperture. -/
def Five.get {α : Type} (t : Five α) : Aperture → α
  | .fl => t.fl
  | .fr => t.fr
  | .rl => t.rl
  | .rr => t.rr
  | .tg => t.tg

/-- One aperture's value replaced. -/
def Five.set {α : Type} (t : Five α) (a : Aperture) (x : α) : Five α :=
  match a with
  | .fl => { t with fl := x }
  | .fr => { t with fr := x }
  | .rl => { t with rl := x }
  | .rr => { t with rr := x }
  | .tg => { t with tg := x }

/-- The value at a side door. -/
def Four.get {α : Type} (t : Four α) : Door → α
  | .fl => t.fl
  | .fr => t.fr
  | .rl => t.rl
  | .rr => t.rr

/-- One side door's value replaced. -/
def Four.set {α : Type} (t : Four α) (d : Door) (x : α) : Four α :=
  match d with
  | .fl => { t with fl := x }
  | .fr => { t with fr := x }
  | .rl => { t with rl := x }
  | .rr => { t with rr := x }

/-- The value at a rear door. -/
def Rears.get {α : Type} (t : Rears α) : Rear → α
  | .rl => t.rl
  | .rr => t.rr

/-- One rear door's value replaced. -/
def Rears.set {α : Type} (t : Rears α) (r : Rear) (x : α) : Rears α :=
  match r with
  | .rl => { t with rl := x }
  | .rr => { t with rr := x }

/-- The value at a front door. -/
def Fronts.get {α : Type} (t : Fronts α) : Front → α
  | .fl => t.fl
  | .fr => t.fr

/-- One front door's value replaced. -/
def Fronts.set {α : Type} (t : Fronts α) (f : Front) (x : α) : Fronts α :=
  match f with
  | .fl => { t with fl := x }
  | .fr => { t with fr := x }

/-! ### Names -/

/-- Roles in rising order (01, R3). -/
inductive Role where | valet | family | master | system
deriving DecidableEq, Repr

/-- Key states (01, R2). -/
inductive KeyState where | empty | active | suspended | damaged
deriving DecidableEq, Repr

/-- Unlock modes (01, R1). -/
inductive UnlockMode where | all | originFirst
deriving DecidableEq, Repr

/-- Operating modes (10, R166). -/
inductive Mode where | active | autonomous | parked
deriving DecidableEq, Repr

/-- Power modes (03, R54). -/
inductive PowerMode where | off | accessory | run
deriving DecidableEq, Repr

/-- Whether the part runs, is held in a low-voltage reset, or has lost its retained state (10, R172). -/
inductive Power where | running | lowVoltage | lost
deriving DecidableEq, Repr

/-- Wake sources (10, R171). -/
inductive WakeSource where | rf | touch | tailgateButton | rocker | handle | ajar | crash | link
deriving DecidableEq, Repr

/-- Reasons of denials and refusals (12, R185). -/
inductive Reason where
  | damaged | ajar | crashHold | speed | notUnlocked | notFitted | reversal | notFaulted | activity
  | role | unnormalized | autoOff | pinchLimit
deriving DecidableEq, Repr

/-- Fault kinds (12, R185). -/
inductive FaultKind where
  | jam | sensor | stall | noPulses | runLimit | positionLost | pinch | damagedStep
deriving DecidableEq, Repr

/-- Requesters of latch and window operations (04, R60; 05, R90). -/
inductive Requester where
  | chain (t : Trigger) | link | handle | childButton | crash | ownSwitch | driverPack | pinch
deriving DecidableEq, Repr

/-- Reply statuses (11, R176). -/
inductive Status where
  | ok | badFrame | unknown | badLength | badArgument | notReady | notFound | slotBusy | duplicateId
  | noWindow | lastMaster | busy | refused (r : Reason)
deriving DecidableEq, Repr

/-- Outcomes of an operation at one aperture (07, R134, R137). -/
inductive OpOutcome where
  | done | met | issued | denied (r : Reason) | overridden | fault (k : FaultKind)
deriving DecidableEq, Repr

/-! ### Key Table Unit -/

/-- The three profile fields (01, R1). -/
structure Profile where
  unlockMode : UnlockMode
  passiveEntry : Bool
  comfortWindows : Bool
deriving DecidableEq, Repr

/-- The stored fields of a key record (01, R1). -/
structure KeyStored where
  state : KeyState
  identity : Option (BitVec 32)
  secret : BitVec 128
  role : Role
  counter : BitVec 24
  profile : Profile
deriving DecidableEq, Repr

/-- The EMPTY values of 01, R1. -/
def KeyStored.empty : KeyStored :=
  { state := .empty, identity := none, secret := 0, role := .valet, counter := 0,
    profile := { unlockMode := .all, passiveEntry := false, comfortWindows := false } }

/-- The values 01, R1 gives for a DAMAGED record. -/
def KeyStored.damaged : KeyStored := { KeyStored.empty with state := .damaged }

/-- Operation markers (01, R6). -/
inductive Marker where | none | counterPersist | linkChange
deriving DecidableEq, Repr

/-- A key record's working copy, its volatile fields and its operation marker (01, R1, R6). -/
structure KeyRecord where
  stored : KeyStored
  /-- resync pending: the counter held and its frame's arrival time -/
  resync : Option (BitVec 24 × Nat)
  rejects : Nat
  batteryLow : Bool
  marker : Marker
deriving DecidableEq, Repr

/-- A working copy just loaded (01, R4). -/
def KeyRecord.load (k : KeyStored) : KeyRecord :=
  { stored := k, resync := none, rejects := 0, batteryLow := false, marker := .none }

/-- A host change to a key record (01, R10 to R14). -/
inductive KeyChange where
  | enroll (identity : BitVec 32) (secret : BitVec 128) (role : Role) (counter : BitVec 24) (profile : Profile)
  | profile (p : Profile)
  | role (r : Role)
  | suspend
  | resume
  | revoke
deriving DecidableEq, Repr

/-- The enrollment window when open (01, R16). -/
structure EnrollWindow where
  expiry : Nat
  slot : Fin 8
deriving DecidableEq, Repr

/-- The Key Table Unit (01). -/
structure KeyTable where
  recs : Vector KeyRecord 8
  window : Option EnrollWindow
  /-- the host change that waits for its record's marker (R6) -/
  waiting : Option (Fin 8 × KeyChange)
deriving DecidableEq, Repr

/-! ### Entry Unit -/

/-- Fob commands (02, R20). -/
inductive FobCommand where | lock | unlock | tailgate | holdClose | holdOpen
deriving DecidableEq, Repr

/-- A well-formed command frame (02, R20). -/
structure CommandFrame where
  identity : BitVec 32
  counter : BitVec 24
  command : FobCommand
  batteryLow : Bool
  check : BitVec 32
deriving DecidableEq, Repr

/-- A frame with its arrival time (02, R20, R21). -/
structure StampedFrame where
  frame : CommandFrame
  arrival : Nat
deriving DecidableEq, Repr

/-- Where the frame in processing stands: waiting at the match (02, R22), or accepted with its command held
until its counter is stored (02, R27). -/
inductive FrameStage where
  | atMatch (slot : Fin 8)
  | accepted (slot : Fin 8)
deriving DecidableEq, Repr

/-- The frame in processing (02, R21). -/
structure Processing where
  stamped : StampedFrame
  stage : FrameStage
deriving DecidableEq, Repr

/-- LF zones (02, R32). -/
inductive Zone where | left | right | rear | interior
deriving DecidableEq, Repr

/-- Search purposes (02, R32). -/
inductive Purpose where | unlockTouch | lockTouch | tailgateButton | insideCheck | enroll
deriving DecidableEq, Repr

/-- A party that waits for a search: the withheld ENROLL_OPEN reply, or a run (02, R32). -/
inductive SearchWaiter where
  | link
  | run (t : Trigger) (serial : Nat)
deriving DecidableEq, Repr

/-- A search request waiting for the transmitter (02, R32, R34); its origin follows from its pair. -/
structure SearchRequest where
  zone : Zone
  purpose : Purpose
  waiters : List SearchWaiter
deriving DecidableEq, Repr

/-- What is captured of a candidate when a search starts (02, R35). -/
structure Candidate where
  slot : Fin 8
  identity : BitVec 32
  secret : BitVec 128
  role : Role
  profile : Profile
deriving DecidableEq, Repr

/-- The search in flight (02, R35, R36). -/
structure Search where
  zone : Zone
  purpose : Purpose
  challenge : BitVec 32
  start : Nat
  windowOpen : Bool
  candidates : List Candidate
  found : List (Fin 8)
  waiters : List SearchWaiter
deriving DecidableEq, Repr

/-- Access commands (02, R31). -/
inductive AccessCommand where
  | lock | unlock | tailgate | holdClose | holdOpen | unlockTouch | lockTouch | tailgateButton
deriving DecidableEq, Repr

/-- Reject reasons (02, R26). -/
inductive RejectReason where | suspended | check | stale | far | resyncPending
deriving DecidableEq, Repr

/-- Access results (02, R31). -/
inductive AccessResult where
  | fired | notPermitted | triggerDisabled | triggerParked | rejected (r : RejectReason)
deriving DecidableEq, Repr

/-- The latest access record when present (02, R31). -/
structure Access where
  slot : Fin 8
  command : AccessCommand
  result : AccessResult
deriving DecidableEq, Repr

/-- The Entry Unit (02, R41). -/
structure Entry where
  rfQueue : List StampedFrame
  processing : Option Processing
  queue : List SearchRequest
  search : Option Search
  access : Option Access
deriving DecidableEq, Repr

/-! ### Input Qualifier -/

/-- A latch state as sensed or meant (04, R60). -/
inductive LatchState where | unlocked | locked | deadlocked | invalid
deriving DecidableEq, Repr

/-- The raw levels of an aperture's switch pair: lock-position switch and deadlock switch made or not. -/
structure Levels where
  lock : Bool
  dead : Bool
deriving DecidableEq, Repr

/-- One qualified input: its raw level, since when it stands, the qualified value, and whether the input has
first qualified since the reset (03, R44, R45). -/
structure Qual (α : Type) where
  raw : α
  since : Nat
  value : α
  first : Bool
deriving DecidableEq, Repr

/-- One touch pad (03, R46). -/
structure PadState where
  contact : Bool
  since : Nat
  ready : Bool
deriving DecidableEq, Repr

/-- The crash line (03, R47). -/
structure CrashLine where
  asserted : Bool
  since : Nat
  ready : Bool
deriving DecidableEq, Repr

/-- One window switch: its qualified position and the position last delivered (03, R48). -/
structure WindowSwitch where
  pos : Qual SwitchPos
  delivered : SwitchPos
deriving DecidableEq, Repr

/-- The qualified inputs (03, R45). -/
structure Inputs where
  pair : Five (Qual Levels)
  childSwitch : Rears (Qual Bool)
  /-- true is OPEN -/
  ajar : Five (Qual Bool)
  /-- true is PULLED -/
  handle : Four (Qual Bool)
  rocker : Fronts (Qual RockerPos)
  /-- true is PRESSED -/
  childButton : Qual Bool
  tailgateButton : Qual Bool
  padUnlock : Fronts PadState
  padLock : Fronts PadState
  pack : Four WindowSwitch
  rearDoor : Rears WindowSwitch
  passenger : WindowSwitch
  crashLine : CrashLine
deriving DecidableEq, Repr

/-- Vehicle state, retained power and supply (03, R52 to R57). -/
structure Vehicle where
  speed : Nat
  /-- when the last VEHICLE_STATE was taken -/
  taken : Option Nat
  discard : Bool
  powerMode : PowerMode
  /-- the retained-power period's expiry, when it runs -/
  retained : Option Nat
  supply : Nat
  supplyHold : Bool
deriving DecidableEq, Repr

/-! ### Latch Units -/

/-- What a door's channel, or TG's solenoid, can be asked to reach (12, R185 "held target"). -/
inductive HeldTarget where | unlocked | locked | deadlocked | on | off | release
deriving DecidableEq, Repr

/-- One chain request that waits for an end: which run and step asked, and the step's SKIP_MET flag (07, R137). -/
structure Tag where
  serial : Nat
  count : Nat
  skipMet : Bool
deriving DecidableEq, Repr

/-- A running drive (04, R60, R63). -/
structure Drive where
  target : HeldTarget
  requester : Requester
  tags : List Tag
  start : Nat
deriving DecidableEq, Repr

/-- A held request (04, R60, R63, R72). -/
structure Held where
  target : HeldTarget
  requester : Requester
  tags : List Tag
deriving DecidableEq, Repr

/-- Latch faults (04, R60). -/
inductive LatchFault where | none | jam | sensor
deriving DecidableEq, Repr

/-- One Latch Unit (04, R60). The credit is that of `restFrom` while no drive runs (R65). -/
structure LatchUnit where
  target : LatchState
  sensed : LatchState
  fault : LatchFault
  drive : Option Drive
  held : Option Held
  credit : Nat
  restFrom : Nat
deriving DecidableEq, Repr

/-- One child-lock subrecord (04, R73); true is ON, `jam` is fault JAM. -/
structure ChildLock where
  target : Bool
  sensed : Bool
  jam : Bool
deriving DecidableEq, Repr

/-- A release pulse (04, R71). -/
structure Pulse where
  ending : Nat
  requester : Requester
  tags : List Tag
deriving DecidableEq, Repr

/-- A deferred request (04, R67); `release` is a tailgate button press, routed when TG's pair first qualifies
(03, R51). -/
inductive Deferred where
  | pull (d : Door)
  | rocker (f : Front) (toLock : Bool)
  | childButton
  | release
  | chain (a : Aperture) (target : HeldTarget) (t : Trigger) (tag : Tag)
deriving DecidableEq, Repr

/-- The Latch Units (04). -/
structure Latches where
  unit : Five LatchUnit
  child : Rears ChildLock
  pulse : Option Pulse
  /-- the end of the interval after a pulse, when it runs (R71) -/
  interval : Option Nat
  /-- the crash hold's working value, true IN_FORCE (R77) -/
  crashHold : Bool
  /-- a crash event has been taken since the reset and its firing is pending (R77, R81) -/
  crashPending : Bool
  deferred : List Deferred
deriving DecidableEq, Repr

/-! ### Window Units -/

/-- Directions (05, R90). -/
inductive Direction where | opening | closing
deriving DecidableEq, Repr

/-- Movement modes (05, R90). -/
inductive MoveMode where | held | toEnd | toPosition | reversal
deriving DecidableEq, Repr

/-- Window phases (05, R88). -/
inductive Phase where | idle | marking | running | coasting
deriving DecidableEq, Repr

/-- Window faults (05, R88). -/
inductive WindowFault where | none | stall | noPulses | runLimit | positionLost
deriving DecidableEq, Repr

/-- A movement asked for (05, R90). `fixed` says the direction is fixed (a TO_POSITION taken in MARKING or
COASTING is not, R93); `amount` is a REVERSAL's N, absent when the travel was absent (06, R115). -/
structure Movement where
  dir : Direction
  fixed : Bool
  mode : MoveMode
  target : Option Nat
  amount : Option Nat
  requester : Requester
  tags : List Tag
deriving DecidableEq, Repr

/-- The motion record (05, R90). -/
structure Motion where
  move : Movement
  pulses : Nat
  /-- when the motor started, absent in MARKING -/
  started : Option Nat
  /-- when the motor stopped, present in the coast -/
  stopped : Option Nat
  score : Nat
  /-- per zone: sum of normalized periods, count of edges (06, R118) -/
  zones : Vector (Nat × Nat) 16
deriving DecidableEq, Repr

/-- The window record (05, R86). `position` is also the running count. -/
structure WindowRec where
  travel : Option Nat
  refs : Vector (Option Nat) 16
  level : Nat
  autoClose : Bool
  position : Nat
  valid : Bool
deriving DecidableEq, Repr

/-- The blank-store values of 05, R86. -/
def WindowRec.blank : WindowRec :=
  { travel := none, refs := Vector.replicate 16 none, level := 7, autoClose := true, position := 0, valid := false }

/-- One Window Unit (05, R86, R88). -/
structure Window where
  record : WindowRec
  known : Bool
  phase : Phase
  coastEnd : Nat
  motion : Option Motion
  followOn : Option Movement
  pinchCount : Nat
  lastFault : WindowFault
  pendingSetup : Option (Nat × Bool)
  pendingRelearn : Bool
  consumedPack : Bool
  consumedOwn : Bool
  /-- when the last edge was accepted (R84) -/
  lastEdge : Option Nat
deriving DecidableEq, Repr

/-- A Window Unit after any reset (05, R88), its record not yet loaded. -/
def Window.reset : Window :=
  { record := WindowRec.blank, known := false, phase := .idle, coastEnd := 0, motion := none, followOn := none,
    pinchCount := 0, lastFault := .none, pendingSetup := none, pendingRelearn := false, consumedPack := false,
    consumedOwn := false, lastEdge := none }

/-! ### Chain Engine -/

/-- Step actions (07, R121). -/
inductive Action where
  | empty | lock | unlock | deadlock | childOn | childOff | windowClose | windowOpen | windowTo
  | tailgateRelease | pause | checkInside
deriving DecidableEq, Repr

/-- A chain step (07, R121). The set's bits are FL, FR, RL, RR, TG, ORIGIN; the flags' bits are STOP, STAGE,
NOTIFY, SKIP_MET, NO_WAIT (12, R185). -/
structure Step where
  action : Action
  apertures : BitVec 6
  argument : Option Nat
  minRole : Role
  flags : BitVec 5
  next : Fin 64
deriving DecidableEq, Repr

/-- A step's working copy: its fields, or the DAMAGED marker (07, R121). -/
inductive StepCell where
  | damaged
  | step (st : Step)
deriving DecidableEq, Repr

/-- Staging sources (07, R123). -/
inductive Staging where | always | never | keyProfile
deriving DecidableEq, Repr

/-- A trigger's static part (07, R123); bit i of the cancel set is trigger index i. -/
structure TriggerStatic where
  start : Option (Fin 64)
  priority : Nat
  staging : Staging
  holdToRun : Bool
  cancelSet : BitVec 14
deriving DecidableEq, Repr

/-- A continue point (07, R142). -/
structure ContinuePoint where
  step : Fin 64
  expiry : Nat
deriving DecidableEq, Repr

/-- The carried values of a firing (07, R127, R133). -/
structure Carried where
  origin : Aperture
  role : Role
  slot : Option (Fin 8)
  profile : Option Profile
deriving DecidableEq, Repr

/-- Run states (08, R144). -/
inductive RunState where | ready | active | suspended | faulted
deriving DecidableEq, Repr

/-- Run outcomes (07, R143). -/
inductive RunOutcome where
  | completed | staged | keyInside | runaway | cancelled | released | abandoned
deriving DecidableEq, Repr

/-- What is left of a PAUSE, in µs, and the instant it runs from while it runs (07, R138). -/
structure Pause where
  left : Nat
  since : Option Nat
deriving DecidableEq, Repr

/-- A run record (07, R134); its trigger is its place in the table. -/
structure Run where
  serial : Nat
  state : RunState
  priority : Nat
  stepIndex : Fin 64
  /-- the captured copy, once the step is begun -/
  step : Option Step
  remaining : Five Bool
  outcomes : Five (Option OpOutcome)
  role : Role
  slot : Option (Fin 8)
  origin : Aperture
  staged : Bool
  steps : Nat
  pause : Option Pause
  searchWait : Bool
  /-- a search result not yet taken up: found or not (08, R148) -/
  searchResult : Option Bool
  fault : Option (FaultKind × Option Aperture)
  /-- the hold timer's expiry (08, R153) -/
  hold : Option Nat
deriving DecidableEq, Repr

/-- The latest outcome record when present (07, R143). -/
structure LatestOutcome where
  trigger : Trigger
  outcome : RunOutcome
  slot : Option (Fin 8)
  lastStep : Option (Fin 64)
deriving DecidableEq, Repr

/-- The Chain Engine (07, 08). -/
structure Engine where
  steps : Vector StepCell 64
  triggers : Vector TriggerStatic 14
  continuePoints : Vector (Option ContinuePoint) 14
  refires : Vector (Option Carried) 14
  runs : Vector (Option Run) 14
  nextSerial : Nat
  armed : Bool
  /-- the relock timer's expiry, when it runs (R129) -/
  relock : Option Nat
  latest : Option LatestOutcome
  /-- the record of the 78 that CHAINS_DEFAULT is writing (R125) -/
  defaulting : Option Nat
deriving DecidableEq, Repr

/-- An outcome on its way from a unit to the engine (07, R137). -/
structure Notice where
  trigger : Trigger
  serial : Nat
  count : Nat
  aperture : Aperture
  outcome : OpOutcome
deriving DecidableEq, Repr

/-! ### Link Interface, Supervision, Record Store -/

/-- The settings record (11, R177); `driverFr` is driver side FR. -/
structure Settings where
  driverFr : Bool
  autoLock : Bool
  speedThreshold : Nat
  stagedWindow : Nat
  relockDelay : Nat
  retainedPower : Nat
  silenceExp : Nat
deriving DecidableEq, Repr

/-- The defaults of 11, R177. -/
def Settings.default : Settings :=
  { driverFr := false, autoLock := true, speedThreshold := 15, stagedWindow := 5, relockDelay := 45,
    retainedPower := 45, silenceExp := 4 }

/-- A reply made ready (11, R174, R175). -/
structure Reply where
  status : Status
  overrun : Bool
  payload : List Byte
deriving DecidableEq, Repr

/-- Link states (11, R175). -/
inductive LinkState where
  | idle
  | working
  | replyReady (r : Reply)
deriving DecidableEq, Repr

/-- The Link Interface (11). -/
structure Link where
  state : LinkState
  overrun : Bool
  /-- the bytes the part drove on data out in the last transaction (12, R184) -/
  dataOut : List Byte
  settings : Settings
  flags : BitVec 16
  mask : BitVec 16
deriving DecidableEq, Repr

/-- The silence timer when it runs (10, R167); `atReset` says it still runs from the reset. -/
structure SilenceTimer where
  start : Nat
  interval : Nat
  atReset : Bool
deriving DecidableEq, Repr

/-- The reset-cause record (10, R173). -/
structure ResetCause where
  powerOn : Bool
  lowVoltage : Bool
  link : Bool
deriving DecidableEq, Repr

/-- The Supervision Unit (10). -/
structure Supervision where
  mode : Mode
  silence : Option SilenceTimer
  wakeCauses : BitVec 8
  wakeout : Bool
  resetCause : ResetCause
  pendingReset : Bool
deriving DecidableEq, Repr

/-- The 92 records by name (09, R158). -/
inductive RecordId where
  | key (i : Fin 8)
  | step (i : Fin 64)
  | trigger (t : Trigger)
  | settings
  | window (d : Door)
  | crash
deriving DecidableEq, Repr

/-- A record's whole content (09, R158). -/
inductive Content where
  | key (k : KeyStored)
  | step (st : Step)
  | trigger (t : TriggerStatic)
  | settings (x : Settings)
  | window (w : WindowRec)
  | crash (inForce : Bool)
deriving DecidableEq, Repr

/-- A stored copy: every byte at the erased value; bytes that spell no content, an unknown code among them; or a
content with the check stored beside it (09, R158). -/
inductive Stored (α : Type) where
  | erased
  | unreadable
  | record (content : α) (check : BitVec 16)
deriving DecidableEq, Repr

/-- The 92 stored copies (09, R158). -/
structure Flash where
  keys : Vector (Stored KeyStored) 8
  steps : Vector (Stored Step) 64
  triggers : Vector (Stored TriggerStatic) 14
  settings : Stored Settings
  windows : Four (Stored WindowRec)
  crash : Stored Bool
deriving DecidableEq, Repr

/-- Storage with every record erased (09, R158). -/
def Flash.erased : Flash :=
  { keys := Vector.replicate 8 .erased, steps := Vector.replicate 64 .erased,
    triggers := Vector.replicate 14 .erased, settings := .erased, windows := Four.all .erased, crash := .erased }

/-- A party to be told when a write completes (09, R160). -/
inductive WriteWaiter where
  /-- Key Table Unit, then Entry Unit -/
  | counterPersist (slot : Fin 8)
  /-- Key Table Unit, then Link Interface -/
  | linkChange (slot : Fin 8)
  /-- a Window Unit's position marker -/
  | marker (d : Door)
  /-- WINDOW_SETUP or WINDOW_RELEARN, reply APPLIED -/
  | applied
  /-- a request whose reply is OK alone -/
  | replyOk
  /-- CHAINS_DEFAULT -/
  | chainsDefault
deriving DecidableEq, Repr

/-- An entry of the write queue (09, R159). -/
structure WriteEntry where
  id : RecordId
  content : Content
  waiters : List WriteWaiter
deriving DecidableEq, Repr

/-- Damage counts by kind (09, R165). -/
structure DamageCounts where
  keys : Nat
  steps : Nat
  triggers : Nat
  settings : Nat
  windows : Nat
  crash : Nat
deriving DecidableEq, Repr

/-- The Record Store (09). -/
structure Store where
  flash : Flash
  scanDone : Bool
  queue : List WriteEntry
  inFlight : Option WriteEntry
  repair : List (RecordId × Content)
  damage : DamageCounts
deriving DecidableEq, Repr

/-- The whole state. -/
structure State where
  /-- the clock, in µs (model's own) -/
  now : Nat
  power : Power
  keys : KeyTable
  entry : Entry
  inputs : Inputs
  vehicle : Vehicle
  latches : Latches
  windows : Four Window
  engine : Engine
  link : Link
  sup : Supervision
  store : Store
  /-- outcomes on their way to the engine; empty between commands (model's own) -/
  mail : List Notice
  /-- index of the next free value (model's own) -/
  free : Nat
  /-- the commands that wait, first in first out (model's own) -/
  pending : List Instr
deriving DecidableEq, Repr

/-! ### Reset -/

/-- What stands in the step table before the scan has loaded it: EMPTY steps that nothing reads (07, R121). -/
def Step.empty : Step :=
  { action := .empty, apertures := 0, argument := none, minRole := .valet, flags := 0, next := 0 }

/-- What stands in the trigger table before the scan has loaded it: disabled triggers (07, R123). -/
def TriggerStatic.disabled : TriggerStatic :=
  { start := none, priority := 1, staging := .never, holdToRun := false, cancelSet := 0 }

/-- The Chain Engine after any reset (07, R123, R128, R129, R134, R143); its tables are not yet loaded. -/
def Engine.reset : Engine :=
  { steps := Vector.replicate 64 (.step Step.empty),
    triggers := Vector.replicate 14 TriggerStatic.disabled,
    continuePoints := Vector.replicate 14 none, refires := Vector.replicate 14 none,
    runs := Vector.replicate 14 none, nextSerial := 0, armed := true, relock := none, latest := none,
    defaulting := none }

/-- A Latch Unit after any reset (04, R60). -/
def LatchUnit.reset : LatchUnit :=
  { target := .unlocked, sensed := .unlocked, fault := .none, drive := none, held := none,
    credit := 3000, restFrom := 0 }

/-- The Latch Units after any reset (04, R60, R71, R73, R77). -/
def Latches.reset : Latches :=
  { unit := Five.all LatchUnit.reset, child := ⟨⟨false, false, false⟩, ⟨false, false, false⟩⟩, pulse := none,
    interval := none, crashHold := true, crashPending := false, deferred := [] }

/-- The Entry Unit after any reset (02, R41). -/
def Entry.reset : Entry := { rfQueue := [], processing := none, queue := [], search := none, access := none }

/-- The Key Table Unit after any reset (01, R4, R6, R16). -/
def KeyTable.reset : KeyTable :=
  { recs := Vector.replicate 8 (KeyRecord.load KeyStored.empty), window := none, waiting := none }

/-- The Link Interface after any reset (11, R175, R177, R180). -/
def Link.reset : Link :=
  { state := .idle, overrun := false, dataOut := [], settings := Settings.default, flags := 0, mask := BitVec.allOnes 16 }

/-- Vehicle conditions after any reset (03, R53, R54, R55, R57). -/
def Vehicle.reset : Vehicle :=
  { speed := 0, taken := none, discard := true, powerMode := .off, retained := none, supply := 0, supplyHold := true }

/-- An input with its raw level at rest, not yet qualified. -/
def Qual.fresh {α : Type} (x : α) : Qual α := { raw := x, since := 0, value := x, first := false }

/-- The Input Qualifier after power-on (03, R45, R46, R47). The raw levels are the model's choice: the ajar contacts read
OPEN, every other input is at rest (log entry 4). -/
def Inputs.reset : Inputs :=
  let pad : PadState := { contact := false, since := 0, ready := false }
  let switch : WindowSwitch := { pos := Qual.fresh .neutral, delivered := .neutral }
  { pair := Five.all (Qual.fresh ⟨false, false⟩), childSwitch := ⟨Qual.fresh false, Qual.fresh false⟩,
    ajar := Five.all (Qual.fresh true), handle := Four.all (Qual.fresh false),
    rocker := ⟨Qual.fresh .neutral, Qual.fresh .neutral⟩, childButton := Qual.fresh false,
    tailgateButton := Qual.fresh false, padUnlock := ⟨pad, pad⟩, padLock := ⟨pad, pad⟩, pack := Four.all switch,
    rearDoor := ⟨switch, switch⟩, passenger := switch,
    crashLine := { asserted := false, since := 0, ready := true } }

/-- The Supervision Unit after power-on (10, R167, R171, R173). -/
def Supervision.reset : Supervision :=
  { mode := .active, silence := some { start := 0, interval := ms 800, atReset := true }, wakeCauses := 0,
    wakeout := false, resetCause := { powerOn := true, lowVoltage := false, link := false }, pendingReset := false }

/-- The Record Store after any reset (09, R159 to R165), over given stored copies. -/
def Store.reset (f : Flash) : Store :=
  { flash := f, scanDone := false, queue := [], inFlight := none, repair := [], damage := ⟨0, 0, 0, 0, 0, 0⟩ }

/-- The part right after power-on, a new part with erased storage (log entries 2 to 5). -/
def State.reset : State :=
  { now := 0, power := .running, keys := KeyTable.reset, entry := Entry.reset, inputs := Inputs.reset,
    vehicle := Vehicle.reset, latches := Latches.reset, windows := Four.all Window.reset, engine := Engine.reset,
    link := Link.reset, sup := Supervision.reset, store := Store.reset Flash.erased, mail := [], free := 0,
    pending := [] }

end Sys2Proof.Machine
end

