-- ==== Sys2Proof/Machine/Defaults.lean ====
section
/-! DEFINITION. The default chain set (07, R126). -/

namespace Sys2Proof.Machine

open Sys2Proof

/-- A step of the default set (07, R126). -/
def stepOf (action : Action) (apertures : BitVec 6) (minRole : Role) (flags : BitVec 5) (next : Fin 64) : Step :=
  { action, apertures, argument := none, minRole, flags, next }

/-- Steps 0 to 18 of the default set (07, R126). Flag bits: STOP 1, STAGE 2, NOTIFY 4, SKIP_MET 8, NO_WAIT 16. -/
def defaultSteps : List Step :=
  [ stepOf .unlock 0b100000 .valet 0b00010 1,
    stepOf .unlock 0b011111 .valet 0b01101 0,
    stepOf .lock 0b011111 .valet 0b01110 3,
    stepOf .deadlock 0b011111 .valet 0b00101 2,
    stepOf .unlock 0b010000 .family 0 5,
    stepOf .tailgateRelease 0b010000 .family 0b00001 4,
    stepOf .windowClose 0b001111 .valet 0b00001 6,
    stepOf .unlock 0b011111 .valet 0b01000 8,
    stepOf .windowOpen 0b001111 .valet 0b00001 7,
    stepOf .unlock 0b100000 .valet 0b00010 1,
    stepOf .checkInside 0 .valet 0 11,
    stepOf .lock 0b011111 .valet 0b01101 10,
    stepOf .lock 0b011111 .valet 0b01001 12,
    stepOf .unlock 0b011111 .valet 0b01001 13,
    stepOf .lock 0b011111 .valet 0b01001 14,
    stepOf .lock 0b011111 .valet 0b01101 15,
    { stepOf .pause 0 .valet 0 17 with argument := some 100 },
    stepOf .unlock 0b011111 .valet 0b01101 16,
    stepOf .unlock 0b010000 .family 0 5 ]

/-- The default content of each step (07, R126). -/
def defaultStep (i : Fin 64) : Step := defaultSteps.getD i.val Step.empty

/-- The default content of each trigger's static part (07, R126). -/
def defaultTrigger : Trigger → TriggerStatic
  | .crash => ⟨some 16, 3, .never, false, 0⟩
  | .fobLock => ⟨some 2, 2, .always, false, 0b00000001100100⟩
  | .fobUnlock => ⟨some 0, 2, .keyProfile, false, 0b01000010010010⟩
  | .fobTailgate => ⟨some 4, 2, .never, false, 0⟩
  | .fobCloseAll => ⟨some 6, 1, .never, true, 0b00000000100000⟩
  | .fobOpenAll => ⟨some 7, 1, .never, true, 0b00000000010000⟩
  | .passiveUnlock => ⟨some 9, 2, .keyProfile, false, 0b01000010010010⟩
  | .passiveLock => ⟨some 10, 2, .never, false, 0b00000001100100⟩
  | .passiveTailgate => ⟨some 18, 2, .never, false, 0⟩
  | .insideLock => ⟨some 12, 2, .never, false, 0b00010000000000⟩
  | .insideUnlock => ⟨some 13, 2, .never, false, 0b01101000000000⟩
  | .speedLock => ⟨some 14, 1, .never, false, 0⟩
  | .autoRelock => ⟨some 15, 1, .never, false, 0⟩
  | .linkFire => ⟨none, 1, .never, false, 0⟩

end Sys2Proof.Machine
end

