-- ==== Sys2Proof/Config.lean ====
section
/-! DEFINITION. The free values: what the spec leaves open. (The times and limits the spec fixes are in
Machine/Times.lean.) -/

namespace Sys2Proof.Config

/-- FREE VALUE. The keyed function over a command frame: secret, identity, counter, command bits 0 to 2
(02, R23; 12, R183: "The keyed function itself is not given in this manual"). Log entry 6. -/
opaque frameCheck : BitVec 128 → BitVec 32 → BitVec 24 → BitVec 3 → BitVec 32

/-- FREE VALUE. The keyed function over an identity and a challenge (02, R36; 12, R183). Log entry 6. -/
opaque responseOf : BitVec 128 → BitVec 32 → BitVec 32 → BitVec 32

/-- FREE VALUE. The challenge drawn from the random source (02, R35). Log entry 6. -/
opaque challenge : Nat → BitVec 32

/-- FREE VALUE. What a record is found to hold whose write a reset stopped: 0 the old content, 1 the new
content, 2 damaged (09, R161). Log entry 7. -/
opaque tornWrite : Nat → Fin 3

/-- FREE VALUE. The CRC-16 check computed over a record's content, given as its numbers in order (09, R158: neither the
polynomial nor the layout in storage is given). Log entry 37. -/
opaque recordCheck : List Nat → BitVec 16

/-- FREE VALUE. The target of a latch whose target "returns to its sensed state" while that is INVALID
(04, R63): 0 UNLOCKED, 1 LOCKED, 2 DEADLOCKED. Log entry 15. -/
opaque targetAtInvalid : Nat → Fin 3

/-- FREE VALUE. The target step of a REVERSAL whose coast has lost the position (06, R115 with 05, R85), by the code of
the window's aperture and the moment. Log entry 18. -/
opaque lostTarget : Nat → Nat → Nat

end Sys2Proof.Config
end

