-- ==== Sys2Proof/Machine/Flags.lean ====
section
/-! DEFINITION. The attention flag set with ATTN, and the sets of wake causes and reset causes. -/

namespace Sys2Proof.Machine

open Sys2Proof

/-- The sixteen attention flags (11, R180), in the order of their bits (12, R185). -/
inductive AttentionFlag where
  | chainDone | chainNotify | chainFault | triggerRefused | pinch | latchFault | windowFault | learnFail
  | keyReject | keyInside | ajarLock | crash | wake | silence | storeDamage | powerHold
deriving DecidableEq, Repr

/-- A flag's bit (12, R185). -/
def flagBit : AttentionFlag → Nat
  | .chainDone => 0
  | .chainNotify => 1
  | .chainFault => 2
  | .triggerRefused => 3
  | .pinch => 4
  | .latchFault => 5
  | .windowFault => 6
  | .learnFail => 7
  | .keyReject => 8
  | .keyInside => 9
  | .ajarLock => 10
  | .crash => 11
  | .wake => 12
  | .silence => 13
  | .storeDamage => 14
  | .powerHold => 15

/-- A flag as a set of one (12, R182). -/
def flagMask (f : AttentionFlag) : BitVec 16 := 1#16 <<< flagBit f

/-- Raising a flag: it joins the set whether or not it is masked (11, R180). -/
def raise (f : AttentionFlag) (s : State) : State :=
  { s with link := { s.link with flags := s.link.flags ||| flagMask f } }

/-- Whether a flag is in the set. -/
def raised (f : AttentionFlag) (s : State) : Bool := s.link.flags &&& flagMask f != 0

/-- ATTN: asserted exactly when the set and the mask have a flag in common (11, R181). -/
def attn (s : State) : Bool := s.link.flags &&& s.link.mask != 0

/-- A wake source's bit (12, R185). -/
def wakeBit : WakeSource → Nat
  | .rf => 0
  | .touch => 1
  | .tailgateButton => 2
  | .rocker => 3
  | .handle => 4
  | .ajar => 5
  | .crash => 6
  | .link => 7

/-- A wake source as a set of one. -/
def wakeMask (w : WakeSource) : BitVec 8 := 1#8 <<< wakeBit w

/-- The reset-cause record as its mask: POWER_ON, LOW_VOLTAGE, LINK from bit 0 (12, R185). -/
def resetCauseMask (c : ResetCause) : Nat :=
  (if c.powerOn then 1 else 0) + (if c.lowVoltage then 2 else 0) + (if c.link then 4 else 0)

end Sys2Proof.Machine
end

