-- ==== Sys2Proof/Machine/Operands.lean ====
section
/-! DEFINITION. Operand forms: indexes, the code values of 12, R185 in both directions, bytes of numbers. -/

namespace Sys2Proof.Machine

open Sys2Proof

/-! ### Indexes and members -/

/-- The aperture of a side door. -/
def doorAperture : Door → Aperture
  | .fl => .fl
  | .fr => .fr
  | .rl => .rl
  | .rr => .rr

/-- The side door of an aperture; TG is none. -/
def apertureDoor : Aperture → Option Door
  | .fl => some .fl
  | .fr => some .fr
  | .rl => some .rl
  | .rr => some .rr
  | .tg => none

/-- The rear door of an aperture, which has the child lock. -/
def apertureRear : Aperture → Option Rear
  | .rl => some .rl
  | .rr => some .rr
  | .fl => none
  | .fr => none
  | .tg => none

/-- The rear door as a side door. -/
def rearDoorOf : Rear → Door
  | .rl => .rl
  | .rr => .rr

/-- The front door as a side door. -/
def frontDoorOf : Front → Door
  | .fl => .fl
  | .fr => .fr

/-- The apertures in the order of 00_scope.md. -/
def allApertures : List Aperture := [.fl, .fr, .rl, .rr, .tg]

/-- The side doors in the order of 00_scope.md. -/
def allDoors : List Door := [.fl, .fr, .rl, .rr]

/-- The window switches. -/
def allWinSwitches : List WinSwitch :=
  [.pack .fl, .pack .fr, .pack .rl, .pack .rr, .rearDoor .rl, .rearDoor .rr, .passenger]

/-- Every trigger, by rising index (07, R123). -/
def allTriggers : List Trigger :=
  [.crash, .fobLock, .fobUnlock, .fobTailgate, .fobCloseAll, .fobOpenAll, .passiveUnlock, .passiveLock,
   .passiveTailgate, .insideLock, .insideUnlock, .speedLock, .autoRelock, .linkFire]

/-- A trigger's index (07, R123). -/
def triggerIndex : Trigger → Fin 14
  | .crash => 0
  | .fobLock => 1
  | .fobUnlock => 2
  | .fobTailgate => 3
  | .fobCloseAll => 4
  | .fobOpenAll => 5
  | .passiveUnlock => 6
  | .passiveLock => 7
  | .passiveTailgate => 8
  | .insideLock => 9
  | .insideUnlock => 10
  | .speedLock => 11
  | .autoRelock => 12
  | .linkFire => 13

/-- The trigger of an index (07, R123). -/
def triggerOf (n : Nat) : Option Trigger := allTriggers[n]?

/-- An aperture's code; ORIGIN's bit is 5 (12, R185). -/
def apertureCode : Aperture → Nat
  | .fl => 0
  | .fr => 1
  | .rl => 2
  | .rr => 3
  | .tg => 4

/-! ### From codes (a byte that is no code of its field gives none, 12, R184) -/

/-- An aperture's code read. -/
def apertureOf (b : Byte) : Option Aperture := allApertures[b.toNat]?

/-- A window's code read: TG and above are unknown (05, R103, R104). -/
def doorOf (b : Byte) : Option Door := allDoors[b.toNat]?

/-- An on/off or yes/no code read. -/
def boolOf (b : Byte) : Option Bool := if b = 0 then some false else if b = 1 then some true else none

/-- A role code read; SYSTEM is refused wherever a request names a role (01, R19; 07, R122). -/
def roleOf (b : Byte) : Option Role :=
  if b = 0 then some .valet else if b = 1 then some .family else if b = 2 then some .master else none

/-- An unlock mode code read. -/
def unlockModeOf (b : Byte) : Option UnlockMode :=
  if b = 0 then some .all else if b = 1 then some .originFirst else none

/-- The three profile fields read. -/
def profileOf (u p c : Byte) : Option Profile :=
  match unlockModeOf u, boolOf p, boolOf c with
  | some u, some p, some c => some { unlockMode := u, passiveEntry := p, comfortWindows := c }
  | _, _, _ => none

/-- A power mode code read (03, R52). -/
def powerModeOf (b : Byte) : Option PowerMode :=
  if b = 0 then some .off else if b = 1 then some .accessory else if b = 2 then some .run else none

/-- A staging source code read. -/
def stagingOf (b : Byte) : Option Staging :=
  if b = 0 then some .always else if b = 1 then some .never else if b = 2 then some .keyProfile else none

/-- The step actions by code. -/
def allActions : List Action :=
  [.empty, .lock, .unlock, .deadlock, .childOn, .childOff, .windowClose, .windowOpen, .windowTo,
   .tailgateRelease, .pause, .checkInside]

/-- A step action code read. -/
def actionOf (b : Byte) : Option Action := allActions[b.toNat]?

/-- A fob command code read (12, R183, R185). -/
def fobCommandOf (n : Nat) : Option FobCommand :=
  [FobCommand.lock, .unlock, .tailgate, .holdClose, .holdOpen][n]?

/-- A slot byte read: 0..7 (01, R8). -/
def slotOf (b : Byte) : Option (Fin 8) := if h : b.toNat < 8 then some ⟨b.toNat, h⟩ else none

/-- A step index read: 0..63 (07, R122). -/
def stepIndexOf (b : Byte) : Option (Fin 64) := if h : b.toNat < 64 then some ⟨b.toNat, h⟩ else none

/-! ### To codes (12, R185) -/

/-- yes/no, on/off, OPEN/CLOSED, IN_FORCE/CLEAR, ON/OFF. -/
def boolCode (b : Bool) : Nat := if b then 1 else 0

/-- Role codes. -/
def roleCode : Role → Nat
  | .valet => 0
  | .family => 1
  | .master => 2
  | .system => 3

/-- Key state codes. -/
def keyStateCode : KeyState → Nat
  | .empty => 0
  | .active => 1
  | .suspended => 2
  | .damaged => 3

/-- Unlock mode codes. -/
def unlockModeCode : UnlockMode → Nat
  | .all => 0
  | .originFirst => 1

/-- Fob command codes. -/
def fobCommandCode : FobCommand → Nat
  | .lock => 0
  | .unlock => 1
  | .tailgate => 2
  | .holdClose => 3
  | .holdOpen => 4

/-- Access command codes. -/
def accessCommandCode : AccessCommand → Nat
  | .lock => 0
  | .unlock => 1
  | .tailgate => 2
  | .holdClose => 3
  | .holdOpen => 4
  | .unlockTouch => 5
  | .lockTouch => 6
  | .tailgateButton => 7

/-- Access result codes. -/
def accessResultCode : AccessResult → Nat
  | .fired => 0
  | .notPermitted => 1
  | .triggerDisabled => 2
  | .triggerParked => 3
  | .rejected .suspended => 4
  | .rejected .check => 5
  | .rejected .stale => 6
  | .rejected .far => 7
  | .rejected .resyncPending => 8

/-- Latch state codes. -/
def latchStateCode : LatchState → Nat
  | .unlocked => 0
  | .locked => 1
  | .deadlocked => 2
  | .invalid => 3

/-- Held target codes. -/
def heldTargetCode : HeldTarget → Nat
  | .unlocked => 0
  | .locked => 1
  | .deadlocked => 2
  | .on => 3
  | .off => 4
  | .release => 5

/-- Latch fault codes. -/
def latchFaultCode : LatchFault → Nat
  | .none => 0
  | .jam => 1
  | .sensor => 2

/-- Power mode codes. -/
def powerModeCode : PowerMode → Nat
  | .off => 0
  | .accessory => 1
  | .run => 2

/-- Operating mode codes. -/
def modeCode : Mode → Nat
  | .active => 0
  | .autonomous => 1
  | .parked => 2

/-- Window phase codes. -/
def phaseCode : Phase → Nat
  | .idle => 0
  | .marking => 1
  | .running => 2
  | .coasting => 3

/-- Direction codes. -/
def directionCode : Direction → Nat
  | .opening => 0
  | .closing => 1

/-- Movement mode codes. -/
def moveModeCode : MoveMode → Nat
  | .held => 0
  | .toEnd => 1
  | .toPosition => 2
  | .reversal => 3

/-- Window fault codes. -/
def windowFaultCode : WindowFault → Nat
  | .none => 0
  | .stall => 1
  | .noPulses => 2
  | .runLimit => 3
  | .positionLost => 4

/-- Requester codes. -/
def requesterCode : Requester → Nat
  | .chain t => (triggerIndex t).val
  | .link => 0x20
  | .handle => 0x21
  | .childButton => 0x22
  | .crash => 0x23
  | .ownSwitch => 0x24
  | .driverPack => 0x25
  | .pinch => 0x26

/-- Step action codes. -/
def actionCode : Action → Nat
  | .empty => 0
  | .lock => 1
  | .unlock => 2
  | .deadlock => 3
  | .childOn => 4
  | .childOff => 5
  | .windowClose => 6
  | .windowOpen => 7
  | .windowTo => 8
  | .tailgateRelease => 9
  | .pause => 10
  | .checkInside => 11

/-- Staging source codes. -/
def stagingCode : Staging → Nat
  | .always => 0
  | .never => 1
  | .keyProfile => 2

/-- Run state codes. -/
def runStateCode : RunState → Nat
  | .ready => 0
  | .active => 1
  | .suspended => 2
  | .faulted => 3

/-- Run outcome codes. -/
def runOutcomeCode : RunOutcome → Nat
  | .completed => 0
  | .staged => 1
  | .keyInside => 2
  | .runaway => 3
  | .cancelled => 4
  | .released => 5
  | .abandoned => 6

/-- Reason codes. -/
def reasonCode : Reason → Nat
  | .damaged => 0
  | .ajar => 1
  | .crashHold => 2
  | .speed => 3
  | .notUnlocked => 4
  | .notFitted => 5
  | .reversal => 6
  | .notFaulted => 7
  | .activity => 8
  | .role => 9
  | .unnormalized => 10
  | .autoOff => 11
  | .pinchLimit => 12

/-- Fault kind codes. -/
def faultKindCode : FaultKind → Nat
  | .jam => 0
  | .sensor => 1
  | .stall => 2
  | .noPulses => 3
  | .runLimit => 4
  | .positionLost => 5
  | .pinch => 6
  | .damagedStep => 7

/-- Status codes; a refusal is 0x40 plus its reason code (12, R184). -/
def statusCode : Status → Nat
  | .ok => 0
  | .badFrame => 1
  | .unknown => 2
  | .badLength => 3
  | .badArgument => 4
  | .notReady => 5
  | .notFound => 6
  | .slotBusy => 7
  | .duplicateId => 8
  | .noWindow => 9
  | .lastMaster => 10
  | .busy => 11
  | .refused r => 0x40 + reasonCode r

/-- Reply results (12, R185). -/
inductive Result where
  | opened | noMaster | done | driving | held | moving | stopped | idle | applied | deferred
deriving DecidableEq, Repr

/-- Reply result codes. -/
def resultCode : Result → Nat
  | .opened => 0
  | .noMaster => 1
  | .done => 2
  | .driving => 3
  | .held => 4
  | .moving => 5
  | .stopped => 6
  | .idle => 7
  | .applied => 8
  | .deferred => 9

/-- One byte for an operation outcome (12, R185, last paragraph). -/
def outcomeCode : Option OpOutcome → Nat
  | none => 0
  | some .done => 1
  | some .met => 2
  | some .issued => 3
  | some .overridden => 4
  | some (.denied r) => 0x10 + reasonCode r
  | some (.fault k) => 0x20 + faultKindCode k

/-! ### Bytes of numbers, most significant first (12, R182) -/

/-- One byte. -/
def byte (n : Nat) : Byte := BitVec.ofNat 8 n

/-- Two bytes. -/
def bytes2 (n : Nat) : List Byte := [byte (n / 256), byte n]

/-- Three bytes. -/
def bytes3 (n : Nat) : List Byte := [byte (n / 65536), byte (n / 256), byte n]

/-- Four bytes. -/
def bytes4 (n : Nat) : List Byte := [byte (n / 16777216), byte (n / 65536), byte (n / 256), byte n]

/-- An optional one-byte field: absent reads 0xFF (12, R182). -/
def optByte : Option Nat → Byte
  | none => 0xFF
  | some n => byte n

/-- An optional two-byte field: absent reads 0xFFFF (12, R182). -/
def optBytes2 : Option Nat → List Byte
  | none => [0xFF, 0xFF]
  | some n => bytes2 n

/-- A time in whole ms, rounded down (log entry 48), in two bytes: one that would pass 65,534 is sent as 65,534
(12, R184). -/
def timeBytes (us : Nat) : List Byte := bytes2 (min 65534 (us / 1000))

/-- The number that a list of bytes spells, most significant first. -/
def numberOf (bs : List Byte) : Nat := bs.foldl (fun n b => n * 256 + b.toNat) 0

end Sys2Proof.Machine
end

