-- ==== Sys2Proof/Machine/Times.lean ====
section
/-! DEFINITION. The times and limits of the rules; every time in µs. -/

namespace Sys2Proof.Machine.Times

/-- Qualification time of the switch pairs, child-lock switches, handles, rockers, buttons and window
switches (03, R45). -/
def switchTime : Nat := ms 20
/-- Qualification time of an ajar contact (03, R45, R50). -/
def ajarTime : Nat := ms 30
/-- Contact that makes a touch (03, R46). -/
def touchTime : Nat := ms 50
/-- Absence of contact that makes a pad READY (03, R46). -/
def padReleaseTime : Nat := ms 20
/-- Qualification time of CRASH_IN (03, R47). -/
def crashTime : Nat := ms 2
/-- The age up to which a vehicle state is trusted (03, R53). -/
def vehicleStateAge : Nat := ms 1000
/-- Credit ceiling, in ms (04, R65). -/
def creditMax : Nat := 3000
/-- Credit a start needs, in ms (04, R63). -/
def creditStart : Nat := 300
/-- Rest that gains 1 ms of credit (04, R65). -/
def creditInterval : Nat := ms 10
/-- Latch drive limit (04, R64). -/
def latchLimit : Nat := ms 300
/-- Child-lock drive limit (04, R64). -/
def childLimit : Nat := ms 400
/-- Release pulse (04, R71). -/
def pulseTime : Nat := ms 200
/-- Interval after a release pulse (04, R71). -/
def intervalTime : Nat := ms 1000
/-- Least spacing of accepted Hall edges, in µs (05, R84). -/
def edgeSpacing : Nat := 150
/-- Ceiling of a period, in µs (05, R84). -/
def periodMax : Nat := 65535
/-- Coast (05, R92). -/
def coastTime : Nat := ms 40
/-- Stall (05, R99). -/
def stallTime : Nat := ms 60
/-- No pulses (05, R102). -/
def noPulsesTime : Nat := ms 300
/-- Run limit (05, R102). -/
def runLimitTime : Nat := ms 8000
/-- Challenge transmission (02, R36). -/
def transmitTime : Nat := ms 8
/-- A whole search, 8 ms and 40 ms (02, R36). -/
def searchTime : Nat := ms 48
/-- Pairing time of a resynchronization (02, R25). -/
def resyncTime : Nat := ms 3000
/-- Enrollment window (01, R16). -/
def enrollTime : Nat := ms 30000
/-- Hold timer (08, R153). -/
def holdTime : Nat := ms 600
/-- The pinch score that decides a pinch (06, R113). -/
def pinchLimit : Nat := 96
/-- Steps a run may begin (07, R141). -/
def stepLimit : Nat := 64

end Sys2Proof.Machine.Times
end

