-- ==== Sys2Proof/Machine/Ops.lean ====
section
/-! DEFINITION. The named operations that several blocks share: one entry of a table read or replaced, the
clock, conditions on the vehicle, replies, store writes, messages to the engine, searches, waking. -/

namespace Sys2Proof.Machine

open Sys2Proof

/-! ### One entry of a table -/

/-- The Latch Unit of an aperture. -/
def latchAt (s : State) (a : Aperture) : LatchUnit := s.latches.unit.get a

/-- A Latch Unit replaced. -/
def setLatch (a : Aperture) (u : LatchUnit) (s : State) : State :=
  { s with latches := { s.latches with unit := s.latches.unit.set a u } }

/-- The child-lock subrecord of a rear door. -/
def childAt (s : State) (r : Rear) : ChildLock := s.latches.child.get r

/-- A child-lock subrecord replaced. -/
def setChild (r : Rear) (c : ChildLock) (s : State) : State :=
  { s with latches := { s.latches with child := s.latches.child.set r c } }

/-- The Window Unit of a door. -/
def windowAt (s : State) (d : Door) : Window := s.windows.get d

/-- A Window Unit replaced. -/
def setWindow (d : Door) (w : Window) (s : State) : State := { s with windows := s.windows.set d w }

/-- The key record of a slot. -/
def keyAt (s : State) (i : Fin 8) : KeyRecord := look s.keys.recs i

/-- A key record replaced. -/
def setKey (i : Fin 8) (k : KeyRecord) (s : State) : State :=
  { s with keys := { s.keys with recs := put s.keys.recs i k } }

/-- The run of a trigger, if one exists (07, R131). -/
def runAt (s : State) (t : Trigger) : Option Run := look s.engine.runs (triggerIndex t)

/-- A trigger's run set or removed. -/
def setRun (t : Trigger) (r : Option Run) (s : State) : State :=
  { s with engine := { s.engine with runs := put s.engine.runs (triggerIndex t) r } }

/-- A trigger's static part. -/
def triggerAt (s : State) (t : Trigger) : TriggerStatic := look s.engine.triggers (triggerIndex t)

/-- A trigger's continue point. -/
def continueAt (s : State) (t : Trigger) : Option ContinuePoint := look s.engine.continuePoints (triggerIndex t)

/-- A trigger's continue point set or cleared (07, R142). -/
def setContinue (t : Trigger) (c : Option ContinuePoint) (s : State) : State :=
  { s with engine := { s.engine with continuePoints := put s.engine.continuePoints (triggerIndex t) c } }

/-- A trigger's refire record. -/
def refireAt (s : State) (t : Trigger) : Option Carried := look s.engine.refires (triggerIndex t)

/-- A trigger's refire record set or cleared (07, R133). -/
def setRefire (t : Trigger) (c : Option Carried) (s : State) : State :=
  { s with engine := { s.engine with refires := put s.engine.refires (triggerIndex t) c } }

/-! ### The clock -/

/-- The clock moved on to a moment that it has not passed (log entry 2). -/
def clockTo (t : Nat) (s : State) : State := { s with now := max s.now t }

/-! ### Conditions on the vehicle -/

/-- Speed is known: mode ACTIVE, a VEHICLE_STATE taken at most 1000 ms ago, no discard mark (03, R53). -/
def speedKnown (s : State) : Bool :=
  s.sup.mode = .active && !s.vehicle.discard &&
    match s.vehicle.taken with
    | none => false
    | some t => s.now - t ≤ Times.vehicleStateAge

/-- Speed known 0 (03, R53). -/
def speedZero (s : State) : Bool := speedKnown s && s.vehicle.speed = 0

/-- An aperture's ajar state is CLOSED (03, R50). -/
def isClosed (s : State) (a : Aperture) : Bool := !(s.inputs.ajar.get a).value

/-- All five apertures closed (03, R50). -/
def allClosed (s : State) : Bool := allApertures.all (isClosed s)

/-- An aperture's switch pair has first qualified (04, R60, R67). -/
def pairQualified (s : State) (a : Aperture) : Bool := (s.inputs.pair.get a).first

/-- A rear door's child-lock switch has first qualified (04, R67, R73). -/
def childQualified (s : State) (r : Rear) : Bool := (s.inputs.childSwitch.get r).first

/-- The driver aperture, as the settings name it (11, R177). -/
def driverAperture (s : State) : Aperture := if s.link.settings.driverFr then .fr else .fl

/-! ### Replies (11, R175, R176) -/

/-- The reply of the request in progress is made ready; it carries the OVERRUN marker, which is then clear. -/
def reply (st : Status) (payload : List Byte) (s : State) : State :=
  { s with link := { s.link with
      state := .replyReady { status := st, overrun := s.link.overrun, payload }, overrun := false } }

/-- A reply of status OK with a result code first (12, R184). -/
def replyResult (r : Result) (rest : List Byte) (s : State) : State := reply .ok (byte (resultCode r) :: rest) s

/-! ### The write queue (09, R159, R164) -/

/-- A write of a record is queued or in flight. -/
def writePending (s : State) (id : RecordId) : Bool :=
  s.store.queue.any (fun e => e.id = id) || s.store.inFlight.any (fun e => e.id = id)

/-- An owner offers a write: it merges with a queued entry of its record in place, or joins the tail; a repair
entry of its record is no longer needed. -/
def offer (id : RecordId) (content : Content) (waiters : List WriteWaiter) (s : State) : State :=
  let queue :=
    if s.store.queue.any (fun e => e.id = id) then
      s.store.queue.map (fun e => if e.id = id then { e with content, waiters := e.waiters ++ waiters } else e)
    else s.store.queue ++ [{ id := id, content, waiters }]
  { s with store := { s.store with queue, repair := s.store.repair.filter fun p => p.1 ≠ id } }

/-! ### Messages to the engine (07, R137) -/

/-- A unit's outcome for a chain request's parties; other requesters are told nothing (04, R61; 05, R93). -/
def tell (req : Requester) (tags : List Tag) (a : Aperture) (outcome : Tag → OpOutcome) (s : State) : State :=
  match req with
  | .chain t =>
    { s with mail := s.mail ++ tags.map fun g =>
        { trigger := t, serial := g.serial, count := g.count, aperture := a, outcome := outcome g } }
  | _ => s

/-- The outcome of a request met at once: MET for a chain request with SKIP_MET, DONE otherwise (04, R62). -/
def metOutcome (g : Tag) : OpOutcome := if g.skipMet then .met else .done

/-! ### Search requests (02, R34, R40) -/

/-- A search request joins the queue: it merges with a queued request of its pair, or takes the tail. -/
def joinQueue (zone : Zone) (purpose : Purpose) (waiters : List SearchWaiter) (q : List SearchRequest) :
    List SearchRequest :=
  if q.any (fun r => r.zone = zone && r.purpose = purpose) then
    q.map (fun r => if r.zone = zone ∧ r.purpose = purpose then { r with waiters := r.waiters ++ waiters } else r)
  else q ++ [{ zone := zone, purpose, waiters }]

/-- A search request merges with the search in flight or a queued request of its pair, or joins the tail. -/
def requestSearch (zone : Zone) (purpose : Purpose) (waiters : List SearchWaiter) (s : State) : State :=
  let joinsQueue := { s with entry := { s.entry with queue := joinQueue zone purpose waiters s.entry.queue } }
  match s.entry.search with
  | some f =>
    if f.zone = zone ∧ f.purpose = purpose then
      { s with entry := { s.entry with search := some { f with waiters := f.waiters ++ waiters } } }
    else joinsQueue
  | none => joinsQueue

/-- A retired run leaves the waiter lists; a queued INSIDE_CHECK left without waiters leaves the queue (02, R40). -/
def dropWaiter (t : Trigger) (s : State) : State :=
  let keep := fun w : SearchWaiter =>
    match w with
    | .link => true
    | .run u _ => u ≠ t
  { s with entry := { s.entry with
      queue := (s.entry.queue.map fun q => { q with waiters := q.waiters.filter keep }).filter (fun q =>
        q.purpose ≠ .insideCheck || !q.waiters.isEmpty)
      search := s.entry.search.map fun f => { f with waiters := f.waiters.filter keep } } }

/-! ### Modes (10, R166, R167, R171) -/

/-- The silence interval, 2^n × 50 ms (10, R167). -/
def silenceInterval (x : Settings) : Nat := ms (2 ^ x.silenceExp * 50)

/-- The silence timer restarted with the interval now in force (10, R167). -/
def restartSilence (s : State) : State :=
  { s with sup := { s.sup with
      silence := some { start := s.now, interval := silenceInterval s.link.settings, atReset := false } } }

/-- A wake source: in PARKED it wakes the part, elsewhere it does nothing (10, R171). -/
def wake (w : WakeSource) (s : State) : State :=
  if s.sup.mode = .parked then
    restartSilence (raise .wake { s with sup := { s.sup with
      mode := .active, wakeCauses := s.sup.wakeCauses ||| wakeMask w, wakeout := true } })
  else s

/-- A valid request frame returns an AUTONOMOUS part to ACTIVE; speed that becomes known 0 again arms SPEED_LOCK
(10, R167; 07, R128; log entry 21). -/
def returnToActive (s : State) : State :=
  if s.sup.mode = .autonomous then
    let s' := { s with sup := { s.sup with mode := .active } }
    { s' with engine := { s'.engine with armed := s'.engine.armed || speedZero s' } }
  else s

/-- What a valid request frame does whatever its command and the link state: mode, silence timer, WAKEOUT
(10, R167, R171; 11, R174). -/
def validFrame (s : State) : State :=
  let s := restartSilence (returnToActive s)
  { s with sup := { s.sup with wakeout := false } }

/-! ### How a meaning runs -/

/-- An event of a part that runs; a part held in a reset takes nothing (10, R172; log entry 13). -/
def event (f : State → State) (s : State) : Host.Outcome State Fault Refusal :=
  .next (if s.power = .running then f s else s)

end Sys2Proof.Machine
end

