-- ==== Sys2Proof/Machine/Latch.lean ====
section
/-! DEFINITION. The Latch Units (04): requests, drives, credit, sensed changes, release and crash release,
as operations that leave their outcomes in the mail. The meanings that use them are in LatchEvents.lean. -/

namespace Sys2Proof.Machine

open Sys2Proof

/-! ### Targets and the channel -/

/-- The actuators of an aperture: latch, child lock (RL, RR), release solenoid (TG) (04, R60). -/
inductive Actuator where | latch | child | release
deriving DecidableEq, Repr

/-- Which actuator a target is for. -/
def actuatorOf : HeldTarget → Actuator
  | .unlocked => .latch
  | .locked => .latch
  | .deadlocked => .latch
  | .on => .child
  | .off => .child
  | .release => .release

/-- A latch target as a latch state. -/
def latchStateOf : HeldTarget → LatchState
  | .unlocked => .unlocked
  | .locked => .locked
  | .deadlocked => .deadlocked
  | .on => .invalid
  | .off => .invalid
  | .release => .invalid

/-- The channel is driving, waiting or at rest (04, R60, R63). -/
inductive ChannelPhase where | idle | driving | held
deriving DecidableEq, Repr

/-- The phase: DRIVING while a drive runs, else HELD while a held request exists, else IDLE (04, R63). -/
def channelPhase (u : LatchUnit) : ChannelPhase :=
  if u.drive.isSome then .driving else if u.held.isSome then .held else .idle

/-- The credit as it stands: it gains 1 ms for each whole 10 ms of rest, up to 3000 (04, R65; log entry 23). -/
def creditOf (u : LatchUnit) (now : Nat) : Nat :=
  if u.drive.isSome then u.credit
  else min Times.creditMax (u.credit + (now - u.restFrom) / Times.creditInterval)

/-- A drive begins: the credit it starts from is fixed, a partial interval is lost (04, R63, R65). -/
def beginDrive (a : Aperture) (target : HeldTarget) (req : Requester) (tags : List Tag) (s : State) : State :=
  let u := latchAt s a
  setLatch a { u with credit := creditOf u s.now, drive := some { target, requester := req, tags, start := s.now } } s

/-- A drive stops: its whole elapsed ms are charged, down to 0, and rest begins (04, R64, R65). -/
def endDrive (a : Aperture) (s : State) : State :=
  let u := latchAt s a
  match u.drive with
  | none => s
  | some d =>
    setLatch a { u with drive := none, credit := u.credit - (s.now - d.start) / 1000, restFrom := s.now } s

/-- "The target returns to the sensed state"; sensed INVALID leaves a free value (04, R63; log entry 15). -/
def latchTargetFrom (sensed : LatchState) (index : Nat) : LatchState :=
  match sensed with
  | .unlocked => .unlocked
  | .locked => .locked
  | .deadlocked => .deadlocked
  | .invalid =>
    match Config.targetAtInvalid index with
    | 0 => .unlocked
    | 1 => .locked
    | 2 => .deadlocked

/-- An actuator's target returns to its sensed state (04, R63, R78). -/
def resetTarget (a : Aperture) (act : Actuator) (s : State) : State :=
  match act with
  | .latch =>
    let u := latchAt s a
    setLatch a { u with target := latchTargetFrom u.sensed s.free } { s with free := s.free + 1 }
  | .child =>
    match apertureRear a with
    | some r => let c := childAt s r; setChild r { c with target := c.sensed } s
    | none => s
  | .release => s

/-- An actuator takes a request's target, and its latched fault is cleared (04, R62 step 2). -/
def takeTarget (a : Aperture) (target : HeldTarget) (s : State) : State :=
  match actuatorOf target with
  | .latch => setLatch a { latchAt s a with target := latchStateOf target, fault := .none } s
  | .child =>
    match apertureRear a with
    | some r => setChild r { childAt s r with target := target = .on, jam := false } s
    | none => s
  | .release => s

/-- An actuator's sensed state equals a target (04, R62 step 3). -/
def sensedMeets (s : State) (a : Aperture) (target : HeldTarget) : Bool :=
  match actuatorOf target with
  | .latch => (latchAt s a).sensed = latchStateOf target
  | .child =>
    match apertureRear a with
    | some r => (childAt s r).sensed = (target = .on : Bool)
    | none => false
  | .release => false

/-! ### The tests before a request is taken -/

/-- The tests of 04, R61 steps 1 to 4, in order; none is a request that passes. -/
def denial (s : State) (a : Aperture) (target : HeldTarget) : Option Reason :=
  match target with
  | .unlocked => none
  | .locked => if s.latches.crashHold then some .crashHold else if isClosed s a then none else some .ajar
  | .deadlocked => if s.latches.crashHold then some .crashHold else if isClosed s a then none else some .ajar
  | .on =>
    if (apertureRear a).isNone then some .notFitted
    else if s.latches.crashHold then some .crashHold else none
  | .off =>
    if (apertureRear a).isNone then some .notFitted
    else if s.latches.crashHold then some .crashHold
    else if speedZero s then none else some .speed
  | .release => if a = .tg then none else some .notFitted

/-- DEADLOCK is taken as LOCK on TG and while another aperture is open (04, R68). -/
def lowered (s : State) (a : Aperture) (target : HeldTarget) : HeldTarget :=
  match target with
  | .deadlocked => if a = .tg then .locked else if allClosed s then .deadlocked else .locked
  | t => t

/-- A denial answers the requester; DENIED(AJAR) raises AJAR_LOCK (04, R61, R68). -/
def deny (a : Aperture) (req : Requester) (tags : List Tag) (r : Reason) (s : State) : State :=
  tell req tags a (fun _ => .denied r) (if r = .ajar then raise .ajarLock s else s)

/-! ### Taking a request -/

/-- How a request stands when it has been taken (04, R83). -/
inductive Answer where
  | denied (r : Reason)
  | done
  | driving
  | held
deriving DecidableEq, Repr

/-- The held request leaves its place, its requester told OVERRIDDEN (04, R62, R63, R78). -/
def dropHeld (a : Aperture) (s : State) : State :=
  match (latchAt s a).held with
  | none => s
  | some h => tell h.requester h.tags a (fun _ => .overridden) (setLatch a { latchAt s a with held := none } s)

/-- The running drive is stopped, its requester told OVERRIDDEN (04, R62, R64). -/
def overrideDrive (a : Aperture) (s : State) : State :=
  match (latchAt s a).drive with
  | none => s
  | some d => tell d.requester d.tags a (fun _ => .overridden) (endDrive a s)

/-- A request becomes the held request. A held request for another actuator is removed and that actuator's
target returns to its sensed state. POWER_HOLD is raised for want of credit or under the supply hold, at this moment
alone (04, R63; a request held for a busy channel and kept on later: log entry 43). -/
def hold (a : Aperture) (target : HeldTarget) (req : Requester) (tags : List Tag) (s : State) : State :=
  let s' :=
    match (latchAt s a).held with
    | none => s
    | some h => resetTarget a (actuatorOf h.target) (dropHeld a s)
  let s' := setLatch a { latchAt s' a with held := some { target, requester := req, tags } } s'
  if s.vehicle.supplyHold || creditOf (latchAt s a) s.now < Times.creditStart then raise .powerHold s' else s'

/-- A request seeks a drive: it starts with the channel free, credit at least 300 and no supply hold, and is
held otherwise (04, R63). -/
def seekDrive (a : Aperture) (target : HeldTarget) (req : Requester) (tags : List Tag) (s : State) :
    State × Answer :=
  let u := latchAt s a
  if u.drive.isNone && Times.creditStart ≤ creditOf u s.now && !s.vehicle.supplyHold then
    (beginDrive a target req tags s, .driving)
  else (hold a target req tags s, .held)

/-- The earlier requests for the same actuator are replaced: its drive and its held request; on TG a latch
request also replaces a held RELEASE (04, R62 step 1, R72). -/
def replaceEarlier (a : Aperture) (target : HeldTarget) (s : State) : State :=
  let s :=
    match (latchAt s a).drive with
    | some d => if actuatorOf d.target = actuatorOf target then overrideDrive a s else s
    | none => s
  match (latchAt s a).held with
  | some h =>
    if actuatorOf h.target = actuatorOf target || h.target = .release then dropHeld a s else s
  | none => s

/-- A latch or child-lock request that has passed R61 is taken (04, R62): it joins an equal request, an UNLOCK
takes a crash drive over (R79), or it replaces the earlier ones, sets the target, and completes or seeks a drive. -/
def takeRequest (a : Aperture) (target : HeldTarget) (req : Requester) (tags : List Tag) (s : State) :
    State × Answer :=
  let u := latchAt s a
  let joins := fun (t : HeldTarget) (r : Requester) => t = target && r = req
  let fresh :=
    let s := takeTarget a target (replaceEarlier a target s)
    if sensedMeets s a target then (tell req tags a metOutcome s, Answer.done)
    else seekDrive a target req tags s
  match u.drive with
  | some d =>
    if joins d.target d.requester then
      (takeTarget a target (setLatch a { u with drive := some { d with tags := d.tags ++ tags } } s), .driving)
    else if target = .unlocked ∧ d.target = .unlocked ∧ d.requester = .crash then
      (takeTarget a target (setLatch a { u with drive := some { d with requester := req, tags } } s), .driving)
    else
      match u.held with
      | some h =>
        if joins h.target h.requester then
          (takeTarget a target (setLatch a { u with held := some { h with tags := h.tags ++ tags } } s), .held)
        else fresh
      | none => fresh
  | none =>
    match u.held with
    | some h =>
      if joins h.target h.requester then
        (takeTarget a target (setLatch a { u with held := some { h with tags := h.tags ++ tags } } s), .held)
      else fresh
    | none => fresh

/-! ### The tailgate release (04, R71, R72) -/

/-- A release pulse starts; a held RELEASE that is older is replaced (04, R71, R72). A latch request held on TG waits
on: only a RELEASE that is itself held replaces it (log entry 38). -/
def startPulse (req : Requester) (tags : List Tag) (s : State) : State :=
  let s :=
    match (latchAt s .tg).held with
    | some h => if h.target = HeldTarget.release then dropHeld .tg s else s
    | none => s
  { s with latches := { s.latches with
      pulse := some { ending := s.now + Times.pulseTime, requester := req, tags } } }

/-- Steps 1 to 3 of 04, R71: done at once, denied, or neither. -/
def releaseTest (s : State) : Option Answer :=
  if s.latches.pulse.isSome || s.latches.interval.isSome then some .done
  else if (latchAt s .tg).sensed ≠ .unlocked ∨ (latchAt s .tg).target ≠ .unlocked then some (.denied .notUnlocked)
  else if speedZero s = false ∧ s.vehicle.powerMode ≠ .off then some (.denied .speed)
  else none

/-- A RELEASE request at TG (04, R71). Under the supply hold it is kept as TG's held request, whatever it replaces there,
and raises POWER_HOLD (04, R72). -/
def requestRelease (req : Requester) (tags : List Tag) (s : State) : State × Answer :=
  match releaseTest s with
  | some (.denied r) => (deny .tg req tags r s, .denied r)
  | some a => (tell req tags .tg (fun _ => .done) s, a)
  | none =>
    if s.vehicle.supplyHold then (hold .tg .release req tags s, .held) else (startPulse req tags s, .driving)

/-- Any request at a Latch Unit: the tests of R61, then R62, R68 or R71. -/
def requestLatch (a : Aperture) (target : HeldTarget) (req : Requester) (tags : List Tag) (s : State) :
    State × Answer :=
  match denial s a target with
  | some r => (deny a req tags r s, .denied r)
  | none =>
    if target = .release then requestRelease req tags s
    else takeRequest a (lowered s a target) req tags s

/-! ### Ends of a drive and sensed changes -/

/-- A drive ends with an outcome to its requester (04, R64). -/
def finishDrive (a : Aperture) (outcome : OpOutcome) (s : State) : State :=
  match (latchAt s a).drive with
  | none => s
  | some d => tell d.requester d.tags a (fun _ => outcome) (endDrive a s)

/-- A latch fault is latched and LATCH_FAULT raised (04, R64, R66). -/
def latchFault (a : Aperture) (f : LatchFault) (s : State) : State :=
  raise .latchFault (setLatch a { latchAt s a with fault := f } s)

/-- The target of the latch drive now running, if one runs. -/
def latchDriveTarget (u : LatchUnit) : Option HeldTarget :=
  match u.drive with
  | some d => if actuatorOf d.target = .latch then some d.target else none
  | none => none

/-- A held request for the latch waits. -/
def latchHeldWaits (u : LatchUnit) : Bool :=
  match u.held with
  | some h => actuatorOf h.target = .latch
  | none => false

/-- A qualified combination of the switch pair reaches the Latch Unit; `first` says it is the first since the
reset (04, R60, R64, R66). -/
def latchSensed (a : Aperture) (q : LatchState) (first : Bool) (s : State) : State :=
  let s := setLatch a { latchAt s a with sensed := q } s
  match latchDriveTarget (latchAt s a) with
  | some t =>
    if q = .invalid then finishDrive a (.fault .sensor) (latchFault a .sensor s)
    else if q = latchStateOf t then finishDrive a .done s
    else s
  | none =>
    if q = .invalid then
      latchFault a .sensor (if first then setLatch a { latchAt s a with target := .unlocked } s else s)
    else if first = false ∧ latchHeldWaits (latchAt s a) = true then s
    else setLatch a { latchAt s a with target := q } s

/-- A held request for the child lock waits. -/
def childHeldWaits (u : LatchUnit) : Bool :=
  match u.held with
  | some h => actuatorOf h.target = .child
  | none => false

/-- A qualified child-lock switch value reaches the Latch Unit (04, R64, R66, R73). -/
def childSensed (r : Rear) (q : Bool) (first : Bool) (s : State) : State :=
  let a := doorAperture (rearDoorOf r)
  let s := setChild r { childAt s r with sensed := q } s
  match (latchAt s a).drive with
  | some d =>
    if actuatorOf d.target = .child then
      (if sensedMeets s a d.target then finishDrive a .done s else s)
    else if first = false ∧ childHeldWaits (latchAt s a) = true then s
    else setChild r { childAt s r with target := q } s
  | none =>
    if first = false ∧ childHeldWaits (latchAt s a) = true then s
    else setChild r { childAt s r with target := q } s

/-- A drive reaches its limit: 300 ms for a latch, 400 ms for a child lock; it ends FAULT(JAM) (04, R64, R73). -/
def driveLimit (a : Aperture) (s : State) : State :=
  match (latchAt s a).drive with
  | none => s
  | some d =>
    match actuatorOf d.target with
    | .child =>
      let s := finishDrive a (.fault .jam) (clockTo (d.start + Times.childLimit) s)
      match apertureRear a with
      | some r => raise .latchFault (setChild r { childAt s r with jam := true } s)
      | none => s
    | _ => latchFault a .jam (finishDrive a (.fault .jam) (clockTo (d.start + Times.latchLimit) s))

/-! ### Held starts -/

/-- The moment at which a resting channel's credit reaches 300 (04, R63, R65). -/
def creditReady (u : LatchUnit) : Nat := u.restFrom + (Times.creditStart - u.credit) * Times.creditInterval

/-- The held request of an aperture is tested again by R61, lowered by R68, and completes, is denied or starts
(04, R63); a held RELEASE is judged by R71 (04, R72). -/
def startHeld (a : Aperture) (h : Held) (s : State) : State :=
  let s := setLatch a { latchAt s a with held := none } s
  match h.target with
  | .release => (requestRelease h.requester h.tags s).1
  | _ =>
    match denial s a h.target with
    | some r => deny a h.requester h.tags r s
    | none =>
      let t := lowered s a h.target
      let s := if t = h.target then s else setLatch a { latchAt s a with target := latchStateOf t } s
      if sensedMeets s a t then tell h.requester h.tags a metOutcome s
      else beginDrive a t h.requester h.tags s

/-- A held request starts once the supply hold has ended and, for a drive, the channel is free and the credit
has reached 300 (04, R63, R72). -/
def heldStart (a : Aperture) (s : State) : State :=
  match (latchAt s a).held with
  | none => s
  | some h =>
    if s.vehicle.supplyHold then s
    else if h.target = .release then startHeld a h s
    else if (latchAt s a).drive.isSome then s
    else startHeld a h (clockTo (creditReady (latchAt s a)) s)

/-! ### Crash release -/

/-- A running child-lock drive stops at a crash and its target becomes its sensed state (04, R78 step 3). -/
def crashChild (a : Aperture) (s : State) : State :=
  match (latchAt s a).drive with
  | some d => if actuatorOf d.target = .child then resetTarget a .child (overrideDrive a s) else s
  | none => s

/-- The held request is removed at a crash; a child lock's target returns to its sensed state (04, R78 step 2). -/
def crashHeld (a : Aperture) (s : State) : State :=
  match (latchAt s a).held with
  | none => s
  | some h => if actuatorOf h.target = .child then resetTarget a .child (dropHeld a s) else dropHeld a s

/-- An UNLOCK with requester CRASH: it joins a running crash drive, replaces any other latch drive, and starts a
crash drive unless the latch is qualified and sensed UNLOCKED (04, R78 step 4, R79, R81). -/
def crashUnlock (a : Aperture) (s : State) : State :=
  match (latchAt s a).drive with
  | some d =>
    if d.requester = .crash then takeTarget a .unlocked s
    else crashDrive (overrideDrive a s)
  | none => crashDrive s
where
  crashDrive (s : State) : State :=
    let s := takeTarget a .unlocked s
    if pairQualified s a = true ∧ (latchAt s a).sensed = .unlocked then s
    else beginDrive a .unlocked .crash [] s

/-- Steps 2 to 4 of 04, R78 at one aperture. -/
def crashAperture (s : State) (a : Aperture) : State := crashUnlock a (crashChild a (crashHeld a s))

/-- Steps 1 to 4 and 7 of 04, R78: the hold with its write, every aperture, the flag CRASH. Before the scan
completes the hold is found in force and the first crash event queues the write (R77, R81). -/
def crashLatches (s : State) : State :=
  let fresh := if s.store.scanDone then !s.latches.crashHold else !s.latches.crashPending
  let s := { s with latches := { s.latches with crashHold := true } }
  let s := if fresh then offer .crash (.crash true) [] s else s
  raise .crash (allApertures.foldl crashAperture s)

end Sys2Proof.Machine
end

