-- ==== Sys2Proof/Machine/Window.lean ====
section
/-! DEFINITION. The Window Units (05, 06): permissions, movements, edges, pinch, stalls, ends, as operations that
leave their outcomes in the mail. The meanings that use them are in WindowEvents.lean. -/

namespace Sys2Proof.Machine

open Sys2Proof

/-! ### What a window knows -/

/-- The greatest position: Lt + 24, or 4024 while Lt is absent (05, R85). -/
def bound (travel : Option Nat) : Nat :=
  match travel with
  | some l => l + 24
  | none => 4024

/-- Normalization states (05, R87). -/
inductive Normalization where | unnormalized | positioned | normalized
deriving DecidableEq, Repr

/-- All sixteen references are present. -/
def refsPresent (r : WindowRec) : Bool := r.refs.toList.all Option.isSome

/-- The normalization state (05, R87). -/
def normalization (w : Window) : Normalization :=
  if w.known = false then .unnormalized
  else if w.record.travel.isSome && refsPresent w.record then .normalized else .positioned

/-- A movement is in progress: in MARKING or RUNNING (05, R94). -/
def inProgress (w : Window) : Bool := w.phase = .marking || w.phase = .running

/-- From the pinch decision that makes a REVERSAL until its end, requests are set aside (05, R96). -/
def reversing (w : Window) : Bool :=
  w.followOn.any (fun m => m.mode = .reversal) || (inProgress w && w.motion.any fun m => m.move.mode = .reversal)

/-! ### Permissions (05, R89) -/

/-- The state permits a movement of this direction and mode. -/
def permitted (n : Normalization) (dir : Direction) (mode : MoveMode) : Bool :=
  match n with
  | .unnormalized => mode = .held
  | .positioned => mode = .held || (mode = .toEnd && dir = .opening)
  | .normalized => true

/-- The movement is an automatic closing, a TO_END or TO_POSITION closing. -/
def automaticClosing (dir : Direction) (mode : MoveMode) : Bool :=
  dir = .closing && (mode = .toEnd || mode = .toPosition)

/-- The four tests in order; a REVERSAL is not tested; none is a movement that passes. -/
def moveDenial (crashHold : Bool) (w : Window) (dir : Direction) (mode : MoveMode) : Option Reason :=
  if mode = .reversal then none
  else if crashHold && dir = .closing then some .crashHold
  else if permitted (normalization w) dir mode = false then some .unnormalized
  else if automaticClosing dir mode && !w.record.autoClose then some .autoOff
  else if automaticClosing dir mode && 3 ≤ w.pinchCount then some .pinchLimit
  else none

/-! ### Movements -/

/-- The direction of a TO_POSITION from a position: CLOSING when the target is below, OPENING otherwise
(05, R90; equality: log entry 17). -/
def directionTo (position target : Nat) : Direction := if target < position then .closing else .opening

/-- The direction toward a target from where the window stands; with the position unknown it counts as opening, so
that the state fails before a direction can (log entry 35). -/
def aim (w : Window) (target : Nat) : Direction := if w.known then directionTo w.record.position target else .opening

/-- A TO_POSITION whose target is the window's known position. -/
def atTarget (w : Window) (m : Movement) : Bool :=
  m.mode = .toPosition && w.known && m.target = some w.record.position

/-- A movement's direction fixed against the position at its start (05, R90, R93; the position lost: log entry 35). -/
def fixDirection (w : Window) (m : Movement) : Movement :=
  if m.fixed then m
  else
    match m.target with
    | some t => { m with dir := aim w t, fixed := true }
    | none => { m with fixed := true }

/-- A REVERSAL's target fixed at the end of the coast: the position plus N, or the bound 4024 when the travel was
absent at the decision (06, R115); a position lost in the coast leaves a free value (log entry 18). -/
def fixReversal (d : Door) (w : Window) (now : Nat) (m : Movement) : Movement :=
  if m.mode = .reversal then
    match m.amount with
    | some n =>
      { m with target := some (if w.known then w.record.position + n else Config.lostTarget (apertureCode (doorAperture d)) now) }
    | none => { m with target := some 4024 }
  else m

/-- The motion record of a movement whose motor has not started (05, R90, R91). -/
def freshMotion (m : Movement) : Motion :=
  { move := m, pulses := 0, started := none, stopped := none, score := 0, zones := Vector.replicate 16 (0, 0) }

/-- The motor stops and the coast begins; the pinch score is 0 (05, R92; 06, R112). -/
def coast (now : Nat) (w : Window) : Window :=
  { w with phase := .coasting, coastEnd := now + Times.coastTime,
           motion := w.motion.map fun m => { m with stopped := some now, score := 0 } }

/-- A movement replaced under a running motor: everything but the movement is kept (05, R93). -/
def takeOver (m : Movement) (w : Window) : Window :=
  { w with motion := w.motion.map fun x => { x with move := m } }

/-- An outcome for the requester of a movement at a window; switches and PINCH are told nothing (05, R93, R102). -/
def tellMove (d : Door) (m : Movement) (o : OpOutcome) (s : State) : State :=
  tell m.requester m.tags (doorAperture d) (fun _ => o) s

/-- An outcome for the movement of the motion record. -/
def tellMotion (d : Door) (o : OpOutcome) (s : State) : State :=
  match (windowAt s d).motion with
  | some m => tellMove d m.move o s
  | none => s

/-- A write of the window record is offered, every field as it stands (05, R86). -/
def writeWindow (d : Door) (waiters : List WriteWaiter) (s : State) : State :=
  offer (.window d) (.window (windowAt s d).record) waiters s

/-! ### Starting and coming to rest (05, R91, R92) -/

/-- Pending relearn, then pending setup (05, R92 step 1, R103, R104). -/
def applyPending (w : Window) : Window :=
  let r := if w.pendingRelearn then { w.record with travel := none, refs := Vector.replicate 16 none } else w.record
  let r :=
    match w.pendingSetup with
    | some (level, auto) => { r with level, autoClose := auto }
    | none => r
  { w with record := r, pendingRelearn := false, pendingSetup := none }

/-- The window goes IDLE, pending changes applied, and queues its closing write (05, R92). -/
def toIdle (d : Door) (s : State) : State :=
  let w := applyPending (windowAt s d)
  writeWindow d [] (setWindow d { w with phase := .idle, motion := none, followOn := none,
                                         record := { w.record with valid := w.known } } s)

/-- What holds a motor start back: the marker not stored, or the supply hold (05, R91). -/
def startHeldBack (s : State) (d : Door) : Bool :=
  (windowAt s d).record.valid || writePending s (.window d) || s.vehicle.supplyHold

/-- A motor start with nothing holding it back: the tests of R89 again, a target already reached gives DONE, and
otherwise the motor runs (05, R91, R93). -/
def startMotor (d : Door) (m : Movement) (s : State) : State :=
  let w := windowAt s d
  let m' := fixDirection w m
  match moveDenial s.latches.crashHold w m'.dir m'.mode with
  | some r => toIdle d (tellMove d m (.denied r) s)
  | none =>
    if m.fixed = false ∧ atTarget w m = true then toIdle d (tellMove d m .done s)
    else setWindow d { w with phase := .running, followOn := none,
                              motion := some { freshMotion m' with started := some s.now } } s

/-- The end of a coast, or of a movement that ended in MARKING (05, R92). A follow-on held back waits in MARKING with
the direction it was taken with, which the snapshot shows until its start fixes it (log entry 50). -/
def comeToRest (d : Door) (s : State) : State :=
  let w := applyPending (windowAt s d)
  let s := setWindow d w s
  match w.followOn with
  | none => toIdle d s
  | some m =>
    let m := fixReversal d w s.now m
    if startHeldBack s d then
      setWindow d { w with phase := .marking, followOn := none, motion := some (freshMotion m) } s
    else startMotor d m s

/-- The movement in progress is stopped, its requester told `o` if an outcome is due (05, R92, R94, R95, R97). -/
def stopMovement (d : Door) (o : Option OpOutcome) (s : State) : State :=
  let told :=
    match o with
    | some o => tellMotion d o s
    | none => s
  let w := windowAt s d
  match w.phase with
  | .running => setWindow d (coast s.now w) told
  | .marking => comeToRest d (setWindow d { w with motion := none, followOn := none } told)
  | .idle => s
  | .coasting => s

/-- The follow-on is removed, its requester told `o` if an outcome is due. -/
def removeFollowOn (d : Door) (o : Option OpOutcome) (s : State) : State :=
  let w := windowAt s d
  match w.followOn with
  | none => s
  | some m =>
    let s := setWindow d { w with followOn := none } s
    match o with
    | some o => tellMove d m o s
    | none => s

/-! ### Requests (05, R93) -/

/-- How a window request stands when taken (05, R95). -/
inductive WindowAnswer where
  | denied (r : Reason)
  | done
  | moving
deriving DecidableEq, Repr

/-- A movement taken in IDLE goes to MARKING; a valid stored position is marked invalid first (05, R91). -/
def beginMarking (d : Door) (m : Movement) (s : State) : State :=
  let w := windowAt s d
  let s := setWindow d { w with phase := .marking, motion := some (freshMotion m), lastFault := .none,
                                record := { w.record with valid := false } } s
  if w.record.valid then writeWindow d [.marker d] s else s

/-- A request that has passed R89 is taken against the phase (05, R93). It clears the last fault when it is taken, as a
follow-on too, whose later start clears nothing (05, R88; log entry 52). -/
def takeMovement (d : Door) (m : Movement) (s : State) : State × WindowAnswer :=
  let w := windowAt s d
  let loose := { m with fixed := m.mode ≠ .toPosition }
  match w.phase with
  | .idle =>
    if atTarget w m then (tellMove d m .done s, .done) else (beginMarking d m s, .moving)
  | .marking =>
    let s := tellMotion d .overridden s
    (setWindow d { w with motion := some (freshMotion loose), lastFault := .none } s, .moving)
  | .running =>
    let s := tellMotion d .overridden s
    let w := { w with lastFault := .none }
    match w.motion with
    | none => (s, .moving)
    | some x =>
      if atTarget w m then
        (tellMove d m .done (setWindow d (coast s.now (takeOver { m with dir := x.move.dir } w)) s), .done)
      else if m.dir = x.move.dir then (setWindow d (takeOver m w) s, .moving)
      else (setWindow d { coast s.now w with followOn := some m } s, .moving)
  | .coasting =>
    let s := removeFollowOn d (some .overridden) s
    (setWindow d { w with followOn := some loose, lastFault := .none } s, .moving)

/-- A chain's or the host's request for a movement: set aside by a reversal, tested by R89, taken (05, R93, R96). -/
def requestMovement (d : Door) (m : Movement) (s : State) : State × WindowAnswer :=
  let w := windowAt s d
  if reversing w then (tellMove d m (.denied .reversal) s, .denied .reversal)
  else
    match moveDenial s.latches.crashHold w m.dir m.mode with
    | some r => (tellMove d m (.denied r) s, .denied r)
    | none => takeMovement d m s

/-- A HELD or TO_END movement asked for. -/
def plainMove (dir : Direction) (mode : MoveMode) (req : Requester) (tags : List Tag) : Movement :=
  { dir, fixed := true, mode, target := none, amount := none, requester := req, tags }

/-- A TO_POSITION asked for; its direction is that of the position as it stands (05, R90); with the position unknown no
direction fails its test before the state does (log entry 35). -/
def positionMove (w : Window) (target : Nat) (req : Requester) (tags : List Tag) : Movement :=
  { dir := aim w target, fixed := true, mode := .toPosition, target := some target, amount := none, requester := req,
    tags }

/-! ### Switches (05, R94, R96) -/

/-- The direction a switch position asks for; NEUTRAL asks for none. -/
def switchDirection : SwitchPos → Option Direction
  | .neutral => none
  | .opening => some .opening
  | .openAuto => some .opening
  | .closing => some .closing
  | .closeAuto => some .closing

/-- A switch position is an automatic detent. -/
def isAuto : SwitchPos → Bool
  | .openAuto => true
  | .closeAuto => true
  | .neutral => false
  | .opening => false
  | .closing => false

/-- The consumed mark of a switch at a window; `own` is the door's own switch. -/
def consumed (w : Window) (own : Bool) : Bool := if own then w.consumedOwn else w.consumedPack

/-- A consumed mark set or cleared. -/
def setConsumed (own : Bool) (x : Bool) (w : Window) : Window :=
  if own then { w with consumedOwn := x } else { w with consumedPack := x }

/-- The requester a switch stands for. -/
def switchRequester (own : Bool) : Requester := if own then .ownSwitch else .driverPack

/-- A switch's request: a HELD or TO_END in a direction; a TO_END that R89 refuses for a reason other than the
crash hold is taken as HELD; what is then refused is ignored (05, R89, R94). -/
def switchRequest (d : Door) (dir : Direction) (auto own : Bool) (s : State) : State :=
  let w := windowAt s d
  let ask := fun mode => (takeMovement d (plainMove dir mode (switchRequester own) []) s).1
  let held := if (moveDenial s.latches.crashHold w dir .held).isNone then ask .held else s
  if auto then
    match moveDenial s.latches.crashHold w dir .toEnd with
    | none => ask .toEnd
    | some .crashHold => s
    | some _ => held
  else held

/-- The movement this switch's HELD drives, in progress or waiting, is of a given kind. -/
def heldBy (own : Bool) (m : Movement) : Bool := m.mode = .held && m.requester = switchRequester own

/-- NEUTRAL: the mark clears, and this switch's HELD movement stops or leaves as follow-on (05, R94). -/
def switchNeutral (d : Door) (own : Bool) (s : State) : State :=
  let s := setWindow d (setConsumed own false (windowAt s d)) s
  let w := windowAt s d
  if inProgress w && w.motion.any (fun m => heldBy own m.move) then stopMovement d none s
  else if w.followOn.any (heldBy own) then removeFollowOn d none s
  else s

/-- A movement that a switch stops rather than competes with. -/
def isAutomatic (m : Movement) : Bool := m.mode = .toEnd || m.mode = .toPosition

/-- A position from NEUTRAL or the other direction: an automatic movement is stopped and the mark set, otherwise
the switch's request is made (05, R94). -/
def switchPress (d : Door) (dir : Direction) (auto own : Bool) (s : State) : State :=
  let w := windowAt s d
  if inProgress w && w.motion.any (fun m => isAutomatic m.move) then
    let s := stopMovement d (some .overridden) s
    setWindow d (setConsumed own true (windowAt s d)) s
  else if w.followOn.any isAutomatic then
    let s := removeFollowOn d (some .overridden) s
    setWindow d (setConsumed own true (windowAt s d)) s
  else switchRequest d dir auto own s

/-- From the first detent to the automatic detent of a direction: this switch's HELD movement becomes a TO_END if
R89 permits (05, R94); one that waits as follow-on counts as in progress (log entry 39). -/
def switchUpgrade (d : Door) (dir : Direction) (own : Bool) (s : State) : State :=
  let w := windowAt s d
  let mine := fun m : Movement => heldBy own m && m.dir = dir
  if (inProgress w && w.motion.any (fun m => mine m.move)) || w.followOn.any mine then
    if (moveDenial s.latches.crashHold w dir .toEnd).isNone then
      (takeMovement d (plainMove dir .toEnd (switchRequester own) []) s).1
    else s
  else s

/-- A delivery to a Window Unit: the position before and the position now (05, R94, R96). -/
def switchDelivery (d : Door) (own : Bool) (old new : SwitchPos) (s : State) : State :=
  let lockout :=
    match d with
    | .rl => own && (childAt s .rl).target
    | .rr => own && (childAt s .rr).target
    | .fl => false
    | .fr => false
  let w := windowAt s d
  if lockout then s
  else if reversing w then
    if new = .neutral then setWindow d (setConsumed own false w) s
    else if old = .neutral then setWindow d (setConsumed own true w) s
    else s
  else
    match switchDirection new with
    | none => switchNeutral d own s
    | some dir =>
      if consumed w own then s
      else if switchDirection old = some dir then
        (if isAuto new && !isAuto old then switchUpgrade d dir own s else s)
      else switchPress d dir (isAuto new) own s

/-! ### Ends of movement (05, R98 to R102; 06, R113 to R119) -/

/-- The motor stops with an outcome to the requester; the coast begins. -/
def endRunning (d : Door) (o : OpOutcome) (s : State) : State :=
  let s := tellMotion d o s
  setWindow d (coast s.now (windowAt s d)) s

/-- The fault kind a run sees. -/
def windowFaultKind : WindowFault → FaultKind
  | .none => .stall
  | .stall => .stall
  | .noPulses => .noPulses
  | .runLimit => .runLimit
  | .positionLost => .positionLost

/-- The last fault takes the fault's name and WINDOW_FAULT is raised (05, R102). -/
def recordFault (d : Door) (f : WindowFault) (s : State) : State :=
  raise .windowFault (setWindow d { windowAt s d with lastFault := f } s)

/-- A fault ends the movement (05, R102). -/
def windowFault (d : Door) (f : WindowFault) (s : State) : State :=
  endRunning d (.fault (windowFaultKind f)) (recordFault d f s)

/-- The amount of a reversal: none when no reversal is made, some none when the travel is absent (06, R115). -/
def reversalAmount (w : Window) : Option (Option Nat) :=
  match w.record.travel with
  | some l => if l ≤ w.record.position then none else some (some (min 120 (l - w.record.position)))
  | none => some none

/-- The REVERSAL that a pinch makes (06, R115). -/
def reversalMove (amount : Option Nat) : Movement :=
  { dir := .opening, fixed := true, mode := .reversal, target := none, amount, requester := .pinch, tags := [] }

/-- A pinch, by score or by stall (06, R113 to R116). -/
def pinch (d : Door) (s : State) : State :=
  let before := (windowAt s d).pinchCount
  let s := raise .pinch (endRunning d (.fault .pinch) s)
  let s := setWindow d { windowAt s d with pinchCount := min 3 (before + 1) } s
  if before < 3 then
    match reversalAmount (windowAt s d) with
    | none => s
    | some n =>
      let s := removeFollowOn d (some .overridden) s
      setWindow d { windowAt s d with followOn := some (reversalMove n) } s
  else s

/-- One reference updated by one zone's sum and count (06, R119). -/
def updateRef (r : Option Nat) (zone : Nat × Nat) : Option Nat :=
  if zone.2 = 0 then r
  else
    let mean := zone.1 / zone.2
    match r with
    | none => some (clampTo 150 65535 mean)
    | some x => some (clampTo 150 65535 (((x : Int) + ((mean : Int) - (x : Int)).tdiv 8).toNat))

/-- The reference update over the sixteen zones (06, R119). -/
def updateRefs (refs : Vector (Option Nat) 16) (zones : Vector (Nat × Nat) 16) : Vector (Option Nat) 16 :=
  Vector.ofFn fun i => updateRef (look refs i) (look zones i)

/-- The top stop: position 0 and known, pinch count 0, references updated, DONE (05, R100; 06, R114, R119). -/
def topStop (d : Door) (s : State) : State :=
  let w := windowAt s d
  let refs :=
    match w.motion with
    | some m => updateRefs w.record.refs m.zones
    | none => w.record.refs
  endRunning d .done
    (setWindow d { w with known := true, pinchCount := 0, record := { w.record with position := 0, refs } } s)

/-- The bottom stop: the position becomes Lt, or Lt is learned, or LEARN_FAIL is raised; DONE (05, R101). -/
def bottomStop (d : Door) (s : State) : State :=
  let w := windowAt s d
  match w.record.travel with
  | some l => endRunning d .done (setWindow d { w with record := { w.record with position := l } } s)
  | none =>
    if 200 ≤ w.record.position ∧ w.record.position ≤ 4000 then
      endRunning d .done
        (setWindow d { w with record := { w.record with travel := some w.record.position } } s)
    else raise .learnFail (endRunning d .done s)

/-- A stall classified by direction and position (05, R99). -/
def classifyStall (d : Door) (dir : Direction) (s : State) : State :=
  let w := windowAt s d
  match dir with
  | .closing =>
    if w.known = false then topStop d s
    else if w.record.position ≤ 12 then topStop d s
    else pinch d s
  | .opening =>
    if w.known = false then windowFault d .stall s
    else
      match w.record.travel with
      | some l => if l ≤ w.record.position + 12 then bottomStop d s else windowFault d .stall s
      | none => bottomStop d s

/-! ### The pinch computation (06, R106 to R112, R118) -/

/-- Stage 1: the normalized period (06, R108). -/
def normalizedPeriod (t supply : Nat) : Nat := min 65535 (t * clampTo 9000 16000 supply / 13500)

/-- Stage 2: the zone (06, R109). -/
def zoneOf (travel position : Nat) : Fin 16 := ⟨min 15 (position * 16 / (travel + 1)), by omega⟩

/-- Stage 3: the excess, in 1/256 of the reference (06, R110). -/
def excess (ref : Option Nat) (tn : Nat) : Nat :=
  match ref with
  | none => 0
  | some r => if r < tn then min 255 ((tn - r) * 256 / r) else 0

/-- Stage 4: the threshold (06, R111). -/
def threshold (level : Nat) : Nat := 8 + 4 * level

/-- Stage 5: the score (06, R112). -/
def nextScore (score e th : Nat) : Nat := if th < e then min 1023 (score + (e - th)) else score / 2

/-- The edge is evaluated: the six conditions, the counts with this edge counted (06, R106). -/
def evaluated (w : Window) (m : Motion) : Bool :=
  w.phase = .running && m.move.dir = .closing && w.known && w.record.travel.isSome && 13 ≤ m.pulses &&
    6 ≤ w.record.position

/-- Stages 1 to 5 and the zone sums at an evaluated edge (06, R107 to R112, R118). -/
def evaluate (w : Window) (m : Motion) (travel period supply : Nat) : Motion :=
  let tn := normalizedPeriod period supply
  let z := zoneOf travel w.record.position
  let sum := look m.zones z
  { m with score := nextScore m.score (excess (look w.record.refs z) tn) (threshold w.record.level),
           zones := put m.zones z (sum.1 + tn, sum.2 + 1) }

/-! ### Edges (05, R84, R85, R98) -/

/-- A movement's target is reached at a position (05, R98). -/
def targetReached (w : Window) (m : Movement) : Bool :=
  w.known && match m.target with
    | none => false
    | some t => (match m.dir with
      | .closing => w.record.position ≤ t
      | .opening => t ≤ w.record.position)

/-- Counting an edge would leave the bound (05, R85). -/
def edgeLeavesBound (w : Window) (dir : Direction) : Bool :=
  match dir with
  | .closing => w.record.position = 0
  | .opening => bound w.record.travel < w.record.position + 1

/-- The position counted on by one edge; an unknown position stays (05, R85). -/
def countEdge (w : Window) (dir : Direction) : Window :=
  if w.known then
    { w with record := { w.record with position :=
        match dir with
        | .closing => w.record.position - 1
        | .opening => w.record.position + 1 } }
  else w

/-- An accepted edge while RUNNING, with its period (05, R84, R85; 06, R107). -/
def runningEdge (d : Door) (m : Motion) (period : Nat) (s : State) : State :=
  let w := windowAt s d
  let m := { m with pulses := m.pulses + 1 }
  let w := { w with lastEdge := some s.now, motion := some m }
  if w.known && edgeLeavesBound w m.move.dir then
    windowFault d .positionLost (setWindow d { w with known := false } s)
  else
    let w := countEdge w m.move.dir
    match w.record.travel with
    | some l =>
      if evaluated w m then
        let m := evaluate w m l period s.vehicle.supply
        let s := setWindow d { w with motion := some m } s
        if Times.pinchLimit ≤ m.score then pinch d s
        else if targetReached w m.move then endRunning d .done s else s
      else
        let s := setWindow d w s
        if targetReached w m.move then endRunning d .done s else s
    | none =>
      let s := setWindow d w s
      if targetReached w m.move then endRunning d .done s else s

/-- An accepted edge in the coast: it moves the position and nothing more; one that would leave the bound loses
the position (05, R84, R85). -/
def coastingEdge (d : Door) (m : Motion) (s : State) : State :=
  let w := { windowAt s d with lastEdge := some s.now }
  if w.known && edgeLeavesBound w m.move.dir then
    recordFault d .positionLost (setWindow d { w with known := false } s)
  else setWindow d (countEdge w m.move.dir) s

/-- The last accepted edge of a run or, before its first, its motor start: the later of the two moments, as the coast's
edges are accepted without being counted (05, R84, R85). -/
def edgeOrigin (w : Window) (m : Motion) : Nat := max (m.started.getD 0) (w.lastEdge.getD 0)

/-- A Hall edge `gap` µs after the last accepted edge or motor start, or now if that has passed (05, R84; log
entry 2). It is ignored in IDLE and MARKING and rejected within 150 µs of the window's last accepted edge. -/
def hallEdge (d : Door) (gap : Nat) (s : State) : State :=
  let w := windowAt s d
  match w.motion with
  | none => s
  | some m =>
    let origin := edgeOrigin w m
    let s := if w.phase = .running ∨ w.phase = .coasting then clockTo (origin + gap) s else s
    let tooClose :=
      match w.lastEdge with
      | some t => decide (s.now - t < Times.edgeSpacing)
      | none => false
    match w.phase with
    | .running => if tooClose then s else runningEdge d m (min Times.periodMax (s.now - origin)) s
    | .coasting => if tooClose then s else coastingEdge d m s
    | .idle => s
    | .marking => s

/-! ### Crash and retirement (05, R97) -/

/-- A crash stops a window and removes its follow-on. -/
def crashWindow (s : State) (d : Door) : State :=
  removeFollowOn d (some .overridden) (stopMovement d (some .overridden) s)

/-- A retired run's movement or follow-on at a window is stopped or removed, with no outcome. -/
def retireWindow (t : Trigger) (s : State) (d : Door) : State :=
  let w := windowAt s d
  let mine := fun m : Movement => m.requester = .chain t
  let s := if inProgress w && w.motion.any (fun m => mine m.move) then stopMovement d none s else s
  if (windowAt s d).followOn.any mine then removeFollowOn d none s else s

end Sys2Proof.Machine
end

