-- ==== Sys2Proof/Machine/Engine.lean ====
section
/-! DEFINITION. The Chain Engine (07, 08): firings, runs, steps, suspension, faults, retirement. The meanings that
use these operations are in Chains.lean. -/

namespace Sys2Proof.Machine

open Sys2Proof

/-! ### Runs -/

/-- A run waits for the engine: READY or SUSPENDED (08, R145). -/
def waits (r : Run) : Bool := r.state = .ready || r.state = .suspended

/-- The trigger whose run is ACTIVE, if any (08, R144). -/
def activeTrigger (s : State) : Option Trigger :=
  allTriggers.find? fun t => (runAt s t).any fun r => r.state = .active

/-- Roles in rising order (01, R3). -/
def roleRank : Role → Nat
  | .valet => 0
  | .family => 1
  | .master => 2
  | .system => 3

/-- A step has one of its flags: STOP 0, STAGE 1, NOTIFY 2, SKIP_MET 3, NO_WAIT 4 (12, R185). -/
def hasFlag (st : Step) (i : Nat) : Bool := st.flags.getLsbD i
/-- The step has STOP. -/
def hasStop (st : Step) : Bool := hasFlag st 0
/-- The step has STAGE. -/
def hasStage (st : Step) : Bool := hasFlag st 1
/-- The step has NOTIFY. -/
def hasNotify (st : Step) : Bool := hasFlag st 2
/-- The step has SKIP_MET. -/
def hasSkipMet (st : Step) : Bool := hasFlag st 3
/-- The step has NO_WAIT. -/
def hasNoWait (st : Step) : Bool := hasFlag st 4

/-- The remaining set is empty. -/
def noneLeft (r : Run) : Bool := allApertures.all fun a => !r.remaining.get a

/-- An outcome given to an aperture of a run, which leaves the remaining set (07, R137). -/
def giveOutcome (r : Run) (a : Aperture) (o : OpOutcome) : Run :=
  { r with remaining := r.remaining.set a false, outcomes := r.outcomes.set a (some o) }

/-- A unit's outcome recorded in the run it belongs to, in whatever state the run is; one whose serial or count
does not match, or whose aperture has left the remaining set, is discarded (07, R137; 08, R148). -/
def recordNotice (s : State) (n : Notice) : State :=
  match runAt s n.trigger with
  | none => s
  | some r =>
    if r.serial = n.serial ∧ r.steps = n.count ∧ r.remaining.get n.aperture = true then
      setRun n.trigger (some (giveOutcome r n.aperture n.outcome)) s
    else s

/-- All outcomes on their way reach the engine. -/
def deliver (s : State) : State := s.mail.foldl recordNotice { s with mail := [] }

/-! ### The first faulted aperture -/

/-- The FAULT outcome of an aperture, if it has one. -/
def faultAt (r : Run) (a : Aperture) : Option (FaultKind × Option Aperture) :=
  match r.outcomes.get a with
  | some (.fault k) => some (k, some a)
  | _ => none

/-- The first faulted aperture in the order FL, FR, RL, RR, TG, with its kind (07, R141). -/
def firstFault (r : Run) : Option (FaultKind × Option Aperture) := allApertures.findSome? (faultAt r)

/-! ### Ends of a run (07, R143; 08, R151, R154) -/

/-- The run record is removed, CHAIN_DONE raised, the latest outcome record overwritten (07, R143 steps 1 to 3). -/
def removeRun (t : Trigger) (r : Run) (o : RunOutcome) (lastStep : Option (Fin 64)) (s : State) : State :=
  let s := raise .chainDone (setRun t none s)
  { s with engine := { s.engine with latest := some { trigger := t, outcome := o, slot := r.slot, lastStep } } }

/-- A run is retired: its windows stop, it leaves the search's waiters, its refire record is cleared, it ends
(08, R154). The last step is absent when no step has been counted as begun; a first step found DAMAGED is counted (log
entry 12). -/
def retire (t : Trigger) (o : RunOutcome) (s : State) : State :=
  match runAt s t with
  | none => s
  | some r =>
    let s := allDoors.foldl (retireWindow t) s
    removeRun t r o (if r.steps = 0 then none else some r.stepIndex) (setRefire t none (dropWaiter t s))

/-- A run is parked: FAULTED, its fault, no hold timer, CHAIN_FAULT (08, R151). -/
def park (t : Trigger) (r : Run) (f : FaultKind × Option Aperture) (s : State) : State :=
  raise .chainFault (setRun t (some { r with state := .faulted, fault := some f, hold := none }) s)

/-- The relock timer starts afresh at the end of an unlock run by its own steps (07, R129). -/
def startRelock (t : Trigger) (o : RunOutcome) (s : State) : State :=
  if (t = .fobUnlock ∨ t = .passiveUnlock) ∧ (o = .completed ∨ o = .staged) ∧ s.vehicle.powerMode = .off ∧
      s.sup.mode ≠ .autonomous then
    { s with engine := { s.engine with relock := some (s.now + ms (s.link.settings.relockDelay * 1000)) } }
  else s

/-! ### Suspension (08, R147) and activity (08, R149, R150) -/

/-- An ACTIVE run becomes SUSPENDED; a PAUSE stands still with what is left (08, R147; 07, R138). -/
def suspend (t : Trigger) (s : State) : State :=
  match runAt s t with
  | none => s
  | some r =>
    let pause := r.pause.map fun p =>
      match p.since with
      | some since => { left := p.left - (s.now - since), since := none }
      | none => p
    setRun t (some { r with state := .suspended, pause }) s

/-- The target step of a percentage of the travel (05, R90; 07, R137). -/
def percentTarget (percent travel : Nat) : Nat := percent * travel / 100

/-- The latch part of 07, R136's table; an aperture not yet qualified is not met. -/
def latchMet (s : State) (a : Aperture) (target : HeldTarget) : Bool :=
  let u := latchAt s a
  pairQualified s a && match target with
    | .unlocked => u.sensed = .unlocked && u.target = .unlocked
    | .locked => (u.sensed = .locked && u.target = .locked) || (u.sensed = .deadlocked && u.target = .deadlocked)
    | .deadlocked =>
      if a = .tg then u.sensed = .locked && u.target = .locked
      else u.sensed = .deadlocked && u.target = .deadlocked
    | .on => false
    | .off => false
    | .release => false

/-- The child-lock part of 07, R136's table. -/
def childMet (s : State) (a : Aperture) (on : Bool) : Bool :=
  match apertureRear a with
  | some r => childQualified s r && (childAt s r).sensed = on && (childAt s r).target = on
  | none => false

/-- The window part of 07, R136's table; an aperture whose switch pair has not first qualified is not met. -/
def windowMet (s : State) (a : Aperture) (st : Step) : Bool :=
  match apertureDoor a with
  | none => false
  | some d =>
    let w := windowAt s d
    pairQualified s a && w.phase = .idle && w.known && match st.action, w.record.travel with
      | .windowClose, _ => w.record.position = 0
      | .windowOpen, some l => l ≤ w.record.position
      | .windowTo, some l => w.record.position = percentTarget (st.argument.getD 0) l
      | _, _ => false

/-- An aperture's state already meets the step's action (07, R136). -/
def stepMet (s : State) (st : Step) (a : Aperture) : Bool :=
  match st.action with
  | .lock => latchMet s a .locked
  | .unlock => latchMet s a .unlocked
  | .deadlock => latchMet s a .deadlocked
  | .childOn => childMet s a true
  | .childOff => childMet s a false
  | .windowClose => windowMet s a st
  | .windowOpen => windowMet s a st
  | .windowTo => windowMet s a st
  | .tailgateRelease => false
  | .pause => false
  | .checkInside => false
  | .empty => false

/-- A chain request at a latch is deferred while the switch it would act on has not first qualified (04, R67). -/
def chainDeferred (s : State) (a : Aperture) (target : HeldTarget) : Bool :=
  match actuatorOf target with
  | .latch => !pairQualified s a
  | .child => (apertureRear a).any fun r => !childQualified s r
  | .release => a = .tg && !pairQualified s a

/-- A chain's request at a Latch Unit, or its deferral; a reissue beside an earlier deferred request of its run is
deferred too (log entry 45). -/
def issueLatch (t : Trigger) (tag : Tag) (a : Aperture) (target : HeldTarget) (s : State) : State :=
  if chainDeferred s a target then
    { s with latches := { s.latches with deferred := s.latches.deferred ++ [.chain a target t tag] } }
  else (requestLatch a target (.chain t) [tag] s).1

/-- A chain's request at a Window Unit; a WINDOW_TO with Lt absent is DENIED(UNNORMALIZED) without issue
(07, R137). -/
def issueWindow (t : Trigger) (tag : Tag) (a : Aperture) (st : Step) (s : State) : State :=
  match apertureDoor a with
  | none => s
  | some d =>
    match st.action with
    | .windowClose => (requestMovement d (plainMove .closing .toEnd (.chain t) [tag]) s).1
    | .windowOpen => (requestMovement d (plainMove .opening .toEnd (.chain t) [tag]) s).1
    | .windowTo =>
      let w := windowAt s d
      match w.record.travel with
      | none => tell (.chain t) [tag] a (fun _ => .denied .unnormalized) s
      | some l =>
        (requestMovement d (positionMove w (percentTarget (st.argument.getD 0) l) (.chain t) [tag]) s).1
    | _ => s

/-- One aperture's request issued to its unit (07, R137). -/
def issueOne (t : Trigger) (tag : Tag) (st : Step) (a : Aperture) (s : State) : State :=
  match st.action with
  | .lock => issueLatch t tag a .locked s
  | .unlock => issueLatch t tag a .unlocked s
  | .deadlock => issueLatch t tag a .deadlocked s
  | .childOn => issueLatch t tag a .on s
  | .childOff => issueLatch t tag a .off s
  | .tailgateRelease => issueLatch t tag a .release s
  | .windowClose => issueWindow t tag a st s
  | .windowOpen => issueWindow t tag a st s
  | .windowTo => issueWindow t tag a st s
  | .pause => s
  | .checkInside => s
  | .empty => s

/-- An aperture still in a run's remaining set is given an outcome by the engine itself. -/
def engineOutcome (t : Trigger) (a : Aperture) (o : OpOutcome) (s : State) : State :=
  match runAt s t with
  | some r => if r.remaining.get a then setRun t (some (giveOutcome r a o)) s else s
  | none => s

/-- An OVERRIDDEN on its way to the run for its own earlier operation at an aperture, in the event in which the unit takes
the run's reissue there, is discarded (08, R150). -/
def discardOwn (t : Trigger) (tag : Tag) (a : Aperture) (s : State) : State :=
  { s with mail := s.mail.filter fun n =>
      !(n.trigger = t && n.serial = tag.serial && n.count = tag.count && n.aperture = a && n.outcome = .overridden) }

/-- One aperture of the remaining set is issued. The run's own earlier operation ended OVERRIDDEN by it is
discarded (08, R150); under NO_WAIT an aperture without an outcome then gets ISSUED (07, R137). -/
def issueAperture (t : Trigger) (tag : Tag) (st : Step) (s : State) (a : Aperture) : State :=
  match runAt s t with
  | none => s
  | some r =>
    if r.remaining.get a = false then s
    else
      let s := deliver (discardOwn t tag a (issueOne t tag st a s))
      if hasNoWait st then engineOutcome t a .issued s else s

/-- Apertures of the remaining set that already meet the action receive MET, with SKIP_MET (07, R136). -/
def skipMet (t : Trigger) (st : Step) (s : State) : State :=
  if hasSkipMet st then
    allApertures.foldl (fun x a => if stepMet s st a then engineOutcome t a .met x else x) s
  else s

/-- The captured step is issued to the remaining set, the SKIP_MET test first (07, R136, R137; 08, R150). -/
def issueStep (t : Trigger) (st : Step) (s : State) : State :=
  match runAt s t with
  | none => s
  | some r =>
    let tag : Tag := { serial := r.serial, count := r.steps, skipMet := hasSkipMet st }
    allApertures.foldl (issueAperture t tag st) (skipMet t st s)

/-- A run whose step is begun is resumed: parked on a recorded fault, a PAUSE runs on, a step with apertures left
is reissued; the other cases are left to the step's own end (08, R149). -/
def resume (t : Trigger) (r : Run) (st : Step) (s : State) : State :=
  match firstFault r with
  | some f => park t r f s
  | none =>
    match st.action with
    | .pause =>
      setRun t (some { r with pause := r.pause.map fun p => { p with since := some s.now } }) s
    | .checkInside => s
    | _ => if noneLeft r then s else issueStep t st s

/-- A run becomes ACTIVE: a begun step is resumed, one not begun is left for the engine to begin (08, R145). -/
def activate (t : Trigger) (s : State) : State :=
  match runAt s t with
  | none => s
  | some r =>
    let r := { r with state := .active }
    let s := setRun t (some r) s
    match r.step with
    | some st => resume t r st s
    | none => s

/-- A run that has become READY preempts an ACTIVE run of lower priority, in the same event (08, R146). -/
def preempt (t : Trigger) (s : State) : State :=
  match activeTrigger s, runAt s t with
  | some u, some r =>
    match runAt s u with
    | some x => if x.priority < r.priority then activate t (suspend u s) else s
    | none => s
  | _, _ => s

/-! ### Firings (07, R127, R131, R132) -/

/-- A firing: its trigger, what it carries, its hold mark; `request` is a TRIGGER_FIRE's start step and priority. -/
structure Firing where
  trigger : Trigger
  carried : Carried
  holdMark : Bool
  request : Option (Fin 64 × Nat)
deriving DecidableEq, Repr

/-- The engine's answer to a firing (02, R30; 07, R131). -/
inductive FiringAnswer where | fired | triggerDisabled | triggerParked
deriving DecidableEq, Repr

/-- A firing with role SYSTEM, no slot and no profile (07, R127). -/
def systemFiring (t : Trigger) (origin : Aperture) : Firing :=
  { trigger := t, carried := { origin, role := .system, slot := none, profile := none }, holdMark := false,
    request := none }

/-- The start a firing names: its request's, or its trigger's (07, R130, R131). -/
def firingStart (s : State) (f : Firing) : Option (Fin 64) :=
  match f.request with
  | some (start, _) => some start
  | none => (triggerAt s f.trigger).start

/-- The staged flag of a new run (07, R132). -/
def stagedFlag (src : Staging) (p : Option Profile) : Bool :=
  match src with
  | .always => true
  | .never => false
  | .keyProfile => p.any fun p => p.unlockMode = .originFirst

/-- The run a firing makes (07, R132); the CRASH run carries no hold timer (08, R157). -/
def newRun (s : State) (f : Firing) (start : Fin 64) : Run :=
  let tr := triggerAt s f.trigger
  let priority :=
    match f.request with
    | some (_, p) => p
    | none => if f.trigger = .crash then 3 else tr.priority
  let stepIndex :=
    match continueAt s f.trigger with
    | some c => c.step
    | none => start
  { serial := s.engine.nextSerial, state := .ready, priority, stepIndex, step := none,
    remaining := Five.all false, outcomes := Five.all none, role := f.carried.role, slot := f.carried.slot,
    origin := f.carried.origin, staged := stagedFlag tr.staging f.carried.profile, steps := 0, pause := none,
    searchWait := false, searchResult := none, fault := none,
    hold := if tr.holdToRun ∧ f.trigger ≠ .crash then some (s.now + Times.holdTime) else none }

/-- The relock timer stops (07, R129). -/
def stopRelock (s : State) : State := { s with engine := { s.engine with relock := none } }

/-- One trigger of a cancel set: its run is retired CANCELLED and its continue point cleared (07, R131). -/
def cancelTrigger (s : State) (t : Trigger) : State := setContinue t none (retire t .cancelled s)

/-- A firing taken under case 6 of 07, R131: the run is created READY, its cancel set retired by rising trigger index
(log entry 44), the relock timer stopped; then the engine's holder is settled (08, R146, R155). -/
def takeFiring (f : Firing) (start : Fin 64) (s : State) : State :=
  let t := f.trigger
  let cancels := (triggerAt s t).cancelSet
  let r := newRun s f start
  let s := setContinue t none (setRun t (some r) s)
  let s := { s with engine := { s.engine with nextSerial := s.engine.nextSerial + 1 } }
  let s := (allTriggers.filter fun u => u ≠ t && cancels.getLsbD (triggerIndex u).val).foldl cancelTrigger s
  preempt t (stopRelock s)

/-- What a CRASH firing does before its case is decided (07, R131; 08, R156). -/
def crashSweep (s : State) : State :=
  let sweep := fun (s : State) (u : Trigger) => setRefire u none (cancelTrigger s u)
  stopRelock (setContinue .crash none ((allTriggers.filter fun u => u ≠ .crash).foldl sweep s))

/-- The cases of 07, R131. In case 3 a run that was made without a hold timer gets one (log entry 41). -/
def decideFiring (f : Firing) (s : State) : State × FiringAnswer :=
  let t := f.trigger
  match firingStart s f with
  | none => (s, .triggerDisabled)
  | some start =>
    match runAt s t with
    | none => (takeFiring f start s, .fired)
    | some r =>
      match r.state with
      | .faulted => (raise .triggerRefused s, .triggerParked)
      | .ready =>
        if (triggerAt s t).holdToRun && f.holdMark then
          (setRun t (some { r with hold := some (s.now + Times.holdTime) }) s, .fired)
        else (s, .fired)
      | _ =>
        if (triggerAt s t).holdToRun && f.holdMark then
          (setRun t (some { r with hold := some (s.now + Times.holdTime) }) s, .fired)
        else (setRefire t (some f.carried) s, .fired)

/-- A firing at the engine (07, R131). -/
def fire (f : Firing) (s : State) : State × FiringAnswer :=
  decideFiring f (if f.trigger = .crash then crashSweep s else s)

/-- A run ends by its own steps: the record, the relock timer's start, the refire record (07, R133, R143). -/
def endRun (t : Trigger) (r : Run) (o : RunOutcome) (s : State) : State :=
  let s := startRelock t o (removeRun t r o (some r.stepIndex) s)
  match refireAt s t with
  | none => s
  | some c =>
    (fire { trigger := t, carried := c, holdMark := false, request := none } (setRefire t none s)).1

/-! ### Executing a step (07, R135 to R141) -/

/-- The resolved set of a step: ORIGIN replaced, TG removed for window actions (07, R135). -/
def resolvedSet (st : Step) (origin : Aperture) : Five Bool :=
  let named := fun a => st.apertures.getLsbD (apertureCode a) || (st.apertures.getLsbD 5 && origin = a)
  let windowAction := st.action = .windowClose ∨ st.action = .windowOpen ∨ st.action = .windowTo
  { fl := named .fl, fr := named .fr, rl := named .rl, rr := named .rr,
    tg := named .tg && !decide windowAction }

/-- Every aperture of the remaining set receives DENIED(ROLE) (07, R136). -/
def denyRole (r : Run) : Run :=
  allApertures.foldl (fun x a => if x.remaining.get a then giveOutcome x a (.denied .role) else x) r

/-- A run finds its step DAMAGED: the CRASH run ends COMPLETED with the fault recorded, any other is parked
(07, R140; 08, R157). -/
def damagedStep (t : Trigger) (r : Run) (s : State) : State :=
  if t = .crash then
    endRun t { r with fault := r.fault.or (some (.damagedStep, none)) } .completed (raise .chainFault s)
  else park t r (.damagedStep, none) s

/-- A run begins its current step (07, R135 to R140). -/
def beginStep (t : Trigger) (r : Run) (s : State) : State :=
  if Times.stepLimit ≤ r.steps then endRun t r .runaway s
  else
    let r := { r with steps := r.steps + 1, outcomes := Five.all none, remaining := Five.all false, pause := none,
                      searchWait := false, searchResult := none }
    match look s.engine.steps r.stepIndex with
    | .damaged => damagedStep t r (setRun t (some r) s)
    | .step st =>
      let r := { r with step := some st }
      match st.action with
      | .empty => endRun t r .completed (setRun t (some r) s)
      | .pause =>
        setRun t (some { r with pause := some { left := ms ((st.argument.getD 0) * 10), since := some s.now } }) s
      | .checkInside =>
        requestSearch .interior .insideCheck [.run t r.serial] (setRun t (some { r with searchWait := true }) s)
      | _ =>
        let r := { r with remaining := resolvedSet st r.origin }
        if roleRank r.role < roleRank st.minRole then setRun t (some (denyRole r)) s
        else issueStep t st (setRun t (some r) s)

/-- The ACTIVE run's begun step has reached its end: no aperture left, the PAUSE run out, or a search result
there (07, R137 to R139). -/
def stepDone (r : Run) (st : Step) : Bool :=
  match st.action with
  | .pause => r.pause.isNone
  | .checkInside => r.searchResult.isSome
  | _ => noneLeft r

/-- Steps 2 to 5 of 07, R141. -/
def afterStep (t : Trigger) (r : Run) (st : Step) (s : State) : State :=
  let s := if hasNotify st then raise .chainNotify s else s
  if hasStop st then endRun t r .completed s
  else if hasStage st && r.staged then
    let expiry := s.now + ms (s.link.settings.stagedWindow * 1000)
    endRun t r .staged (setContinue t (some { step := st.next, expiry }) s)
  else if Times.stepLimit ≤ r.steps then endRun t r .runaway s
  else setRun t (some { r with stepIndex := st.next, step := none }) s

/-- A step completes (07, R139, R141; 08, R157 for the CRASH run). -/
def completeStep (t : Trigger) (r : Run) (st : Step) (s : State) : State :=
  if st.action = .checkInside ∧ r.searchResult = some true then
    endRun t r .keyInside (raise .keyInside s)
  else
    match firstFault r with
    | some f =>
      if t = .crash then
        let r := { r with fault := r.fault.or (some f) }
        afterStep t r st (raise .chainFault (setRun t (some r) s))
      else park t r f s
    | none => afterStep t r st s

/-- One move of the ACTIVE run: it begins its step, or its step completes; none when it waits. -/
def engineMove (s : State) : Option State :=
  match activeTrigger s with
  | none => none
  | some t =>
    match runAt s t with
    | none => none
    | some r =>
      match r.step with
      | none => some (beginStep t r s)
      | some st => if stepDone r st then some (completeStep t r st s) else none

/-- The ACTIVE run moves until it waits or ends. A run begins at most 64 steps (07, R141), so twice that and a
little is fuel enough. -/
def settle : Nat → State → State
  | 0, s => s
  | n + 1, s =>
    match engineMove s with
    | none => s
    | some s' => settle n s'

/-- The end of every event that may have moved the engine: outcomes delivered, the ACTIVE run moved on. -/
def finishEvent (s : State) : State := deliver (settle 140 (deliver s))

/-! ### SPEED_LOCK (07, R128) -/

/-- The four conditions of SPEED_LOCK. -/
def speedLockDue (s : State) : Bool :=
  s.engine.armed && s.link.settings.autoLock && speedKnown s &&
    s.link.settings.speedThreshold ≤ s.vehicle.speed && allClosed s

/-- SPEED_LOCK's conditions are tested; when they hold the mark is disarmed and the trigger fires. -/
def testSpeedLock (s : State) : State :=
  if speedLockDue s then
    (fire (systemFiring .speedLock (driverAperture s))
      { s with engine := { s.engine with armed := false } }).1
  else s

/-- The arming mark is armed. -/
def armSpeedLock (s : State) : State := { s with engine := { s.engine with armed := true } }

/-! ### The crash, across its owners (04, R78, R81) -/

/-- A crash event: the Latch Units, the four windows, then CRASH fired or, during the scan, kept pending. Outcomes
of the stopped operations reach the engine after the firing (log entry 10). -/
def crashEvent (s : State) : State :=
  let s := allDoors.foldl crashWindow (crashLatches s)
  if s.store.scanDone then (fire (systemFiring .crash (driverAperture s)) s).1
  else { s with latches := { s.latches with crashPending := true } }

end Sys2Proof.Machine
end

