-- ==== Sys2Proof/Machine/Layouts.lean ====
section
/-! DEFINITION. Bytes on the host link: CRC-8, reply frames, and the payloads of 12, R184 and R186. -/

namespace Sys2Proof.Machine

open Sys2Proof

/-! ### CRC-8 and reply frames (11, R174) -/

/-- One bit of the CRC-8 with polynomial x^8 + x^4 + x^3 + x^2 + 1, not reflected. -/
def crcBit (c : Byte) : Byte := if c.getLsbD 7 then (c <<< 1) ^^^ 0x1D else c <<< 1

/-- One byte of the CRC-8. -/
def crcByte (c b : Byte) : Byte :=
  crcBit (crcBit (crcBit (crcBit (crcBit (crcBit (crcBit (crcBit (c ^^^ b))))))))

/-- The CRC-8 of a list of bytes: start 0xFF, XORed with 0xFF at the end. -/
def crc8 (bs : List Byte) : Byte := bs.foldl crcByte 0xFF ^^^ 0xFF

/-- A reply's status byte: the code, and the OVERRUN marker in bit 7 (12, R184). -/
def statusByte (r : Reply) : Byte := byte (statusCode r.status) ||| (if r.overrun then 0x80 else 0)

/-- A reply frame: status, length, payload, CRC-8 (11, R174). -/
def replyFrame (r : Reply) : List Byte :=
  let body := statusByte r :: byte r.payload.length :: r.payload
  body ++ [crc8 body]

/-- The bytes a reply read clocks out: the frame, then 0xFF past its end (12, R184). -/
def clockedOut (frame : List Byte) (n : Nat) : List Byte :=
  frame.take n ++ List.replicate (n - frame.length) 0xFF

/-! ### Records -/

/-- The three profile fields. -/
def profileBytes (p : Profile) : List Byte :=
  [byte (unlockModeCode p.unlockMode), byte (boolCode p.passiveEntry), byte (boolCode p.comfortWindows)]

/-- The KEY_LOOKUP payload, 21 bytes (12, R186). -/
def keyPayload (i : Fin 8) (k : KeyRecord) (now : Nat) : List Byte :=
  let x := k.stored
  let pending :=
    match k.resync with
    | none => [0, 0, 0, 0, 0, 0]
    | some (c, t) => [1] ++ bytes3 c.toNat ++ timeBytes (now - t)
  [byte i.val, byte (keyStateCode x.state)] ++ bytes4 ((x.identity.getD 0).toNat) ++ [byte (roleCode x.role)] ++
    bytes3 x.counter.toNat ++ pending ++ [byte k.rejects, byte (boolCode k.batteryLow)] ++ profileBytes x.profile

/-- The settings in the order of 11, R177, one byte each. -/
def settingsPayload (x : Settings) : List Byte :=
  [byte (boolCode x.driverFr), byte (boolCode x.autoLock), byte x.speedThreshold, byte x.stagedWindow,
   byte x.relockDelay, byte x.retainedPower, byte x.silenceExp]

/-- The step record, 7 bytes; a DAMAGED step reads action 0xFE and zeros (12, R186). -/
def stepPayload (i : Fin 64) (c : StepCell) : List Byte :=
  match c with
  | .damaged => [byte i.val, 0xFE, 0, 0, 0, 0, 0]
  | .step st =>
    [byte i.val, byte (actionCode st.action), byte st.apertures.toNat, byte (st.argument.getD 0),
     byte (roleCode st.minRole), byte st.flags.toNat, byte st.next.val]

/-- The TRIGGER_READ payload: the static part, the continue point with its step and remaining time, whether a
refire record and a run exist (07, R124; 12, R184; log entry 19; the time's rounding: log entry 48). -/
def triggerPayload (tr : TriggerStatic) (c : Option ContinuePoint) (refire run : Bool) (now : Nat) : List Byte :=
  let point :=
    match c with
    | none => [0, 0xFF, 0xFF, 0xFF]
    | some c => [1, byte c.step.val] ++ timeBytes (c.expiry - now)
  [optByte (tr.start.map Fin.val), byte tr.priority, byte (stagingCode tr.staging), byte (boolCode tr.holdToRun)] ++
    bytes2 tr.cancelSet.toNat ++ point ++ [byte (boolCode refire), byte (boolCode run)]

/-! ### The aperture snapshot, 38 bytes (12, R186) -/

/-- The code of a channel phase. -/
def channelPhaseCode : ChannelPhase → Nat
  | .idle => 0
  | .driving => 1
  | .held => 2

/-- The code of a normalization state. -/
def normalizationCode : Normalization → Nat
  | .unnormalized => 0
  | .positioned => 1
  | .normalized => 2

/-- Bytes 2 to 10: the latch subrecord and the credit. -/
def latchBytes (u : LatchUnit) (now : Nat) : List Byte :=
  [byte (latchStateCode u.target), byte (latchStateCode u.sensed), byte (channelPhaseCode (channelPhase u)),
   optByte (u.drive.map fun d => requesterCode d.requester), optByte (u.held.map fun h => heldTargetCode h.target),
   optByte (u.held.map fun h => requesterCode h.requester), byte (latchFaultCode u.fault)] ++
    bytes2 (creditOf u now)

/-- Bytes 11 to 13: the child lock, absent away from RL and RR. -/
def childBytes (s : State) (a : Aperture) : List Byte :=
  match apertureRear a with
  | none => [0xFF, 0xFF, 0xFF]
  | some r =>
    let c := childAt s r
    [byte (boolCode c.target), byte (boolCode c.sensed), byte (boolCode c.jam)]

/-- Bytes 14 and 15: the release solenoid, absent away from TG. -/
def releaseBytes (s : State) (a : Aperture) : List Byte :=
  if a = .tg then [byte (boolCode s.latches.pulse.isSome), byte (boolCode s.latches.interval.isSome)]
  else [0xFF, 0xFF]

/-- A motion's run time in µs: from the motor's start to now, or to the motor's stop in the coast (05, R90; log entry
40). -/
def runTime (m : Motion) (now : Nat) : Nat :=
  match m.started with
  | none => 0
  | some t => min Times.runLimitTime (m.stopped.getD now - t)

/-- Bytes 27 to 37: the motion record, absent as 0xFF (12, R186). The run time is rounded down (log entry 48); a
TO_POSITION that waits in MARKING with its direction not yet fixed shows the one of the position when it was taken
(log entry 50). -/
def motionBytes (m : Option Motion) (now : Nat) : List Byte :=
  match m with
  | none => List.replicate 11 0xFF
  | some m =>
    [byte (directionCode m.move.dir), byte (moveModeCode m.move.mode)] ++ optBytes2 m.move.target ++
      [byte (requesterCode m.move.requester)] ++ bytes2 (min 65535 m.pulses) ++ bytes2 (runTime m now / 1000) ++
      bytes2 m.score

/-- Bytes 16 to 37: the window subrecord, absent on TG. -/
def windowBytes (s : State) (a : Aperture) : List Byte :=
  match apertureDoor a with
  | none => List.replicate 22 0xFF
  | some d =>
    let w := windowAt s d
    [byte (normalizationCode (normalization w))] ++
      optBytes2 (if w.known then some w.record.position else none) ++ [byte (boolCode w.record.valid)] ++
      optBytes2 w.record.travel ++
      [byte (boolCode w.record.autoClose), byte w.record.level, byte (phaseCode w.phase), byte w.pinchCount,
       byte (windowFaultCode w.lastFault)] ++ motionBytes w.motion s.now

/-- The snapshot of one aperture (03, R43). -/
def snapshot (s : State) (a : Aperture) : List Byte :=
  [byte (apertureCode a), byte (boolCode (!isClosed s a))] ++ latchBytes (latchAt s a) s.now ++ childBytes s a ++
    releaseBytes s a ++ windowBytes s a

/-! ### Device status (11, R179) -/

/-- The latest access record in three bytes, absent as 0xFF (02, R31). -/
def accessBytes (x : Option Access) : List Byte :=
  match x with
  | none => [0xFF, 0xFF, 0xFF]
  | some x => [byte x.slot.val, byte (accessCommandCode x.command), byte (accessResultCode x.result)]

/-- The DEVICE_STATUS payload, its fields in the order of 11, R179, each in the fewest bytes that hold its range
(12, R184; log entry 19). -/
def statusPayload (s : State) : List Byte :=
  let age :=
    match s.vehicle.taken with
    | none => [0xFF, 0xFF]
    | some t => timeBytes (s.now - t)
  let d := s.store.damage
  [byte (boolCode s.store.scanDone), byte (modeCode s.sup.mode), byte (resetCauseMask s.sup.resetCause),
   s.sup.wakeCauses, byte s.vehicle.speed, byte (boolCode (speedKnown s))] ++ age ++
    [byte (powerModeCode s.vehicle.powerMode), byte (boolCode s.vehicle.retained.isSome)] ++
    bytes2 s.vehicle.supply ++
    [byte (boolCode s.vehicle.supplyHold), byte (boolCode s.latches.crashHold)] ++ accessBytes s.entry.access ++
    [byte d.keys, byte d.steps, byte d.triggers, byte d.settings, byte d.windows, byte d.crash]

/-! ### Run status (07, R134; 12, R186) -/

/-- Tens of ms left, rounded up. -/
def tensUp (us : Nat) : Nat := (us + 9999) / 10000

/-- What is left of a PAUSE, in µs (07, R138). -/
def pauseLeft (p : Pause) (now : Nat) : Nat :=
  match p.since with
  | some t => p.left - (now - t)
  | none => p.left

/-- The remaining set as its mask. -/
def remainingMask (x : Five Bool) : Nat :=
  boolCode x.fl + 2 * boolCode x.fr + 4 * boolCode x.rl + 8 * boolCode x.rr + 16 * boolCode x.tg

/-- The fault byte: kind in bits 0 to 3, aperture in bits 4 to 7, 0xF when the kind carries none. -/
def faultByte (f : Option (FaultKind × Option Aperture)) : Byte :=
  match f with
  | none => 0xFF
  | some (k, none) => byte (0xF0 + faultKindCode k)
  | some (k, some a) => byte (16 * apertureCode a + faultKindCode k)

/-- The 17 bytes of one run. -/
def runBytes (t : Trigger) (r : Run) (refire : Bool) (now : Nat) : List Byte :=
  [byte (triggerIndex t).val, byte (runStateCode r.state + 16 * r.priority),
   byte (r.stepIndex.val + (if r.step.isSome then 128 else 0)), byte (remainingMask r.remaining),
   byte (outcomeCode r.outcomes.fl), byte (outcomeCode r.outcomes.fr), byte (outcomeCode r.outcomes.rl),
   byte (outcomeCode r.outcomes.rr), byte (outcomeCode r.outcomes.tg), byte (roleCode r.role),
   optByte (r.slot.map Fin.val), byte (apertureCode r.origin),
   byte (boolCode r.staged + 2 * boolCode r.searchWait + 4 * boolCode refire), byte r.steps,
   optByte (r.pause.map fun p => tensUp (pauseLeft p now)), optByte (r.hold.map fun e => tensUp (e - now)),
   faultByte r.fault]

/-- The latest outcome record in four bytes, absent as 0xFF (07, R143). -/
def latestBytes (x : Option LatestOutcome) : List Byte :=
  match x with
  | none => [0xFF, 0xFF, 0xFF, 0xFF]
  | some x =>
    [byte (triggerIndex x.trigger).val, byte (runOutcomeCode x.outcome), optByte (x.slot.map Fin.val),
     optByte (x.lastStep.map Fin.val)]

/-- The RUN_STATUS payload. -/
def runPayload (s : State) : List Byte :=
  let one := fun t =>
    match runAt s t with
    | none => []
    | some r => runBytes t r (refireAt s t).isSome s.now
  let count := (allTriggers.filter fun t => (runAt s t).isSome).length
  byte count :: latestBytes s.engine.latest ++ allTriggers.flatMap one

end Sys2Proof.Machine
end

