-- ==== Sys2Proof/Machine/Link.lean ====
section
/-! DEFINITION. The Link Interface's own conduct (11, R174, R175): how a request frame is taken, and the requests
whose records it holds: attention and settings reads. -/

namespace Sys2Proof.Machine

open Sys2Proof

/-- A new request is taken: an unread reply is discarded, which cancels a pending link reset, and the link is
WORKING (10, R172; 11, R175). -/
def openRequest (s : State) : State :=
  { s with link := { s.link with state := .working }, sup := { s.sup with pendingReset := false } }

/-- The part's data out reads 0xFF during a request transaction of n bytes (12, R184). -/
def driveHigh (n : Nat) (s : State) : State :=
  { s with link := { s.link with dataOut := List.replicate n 0xFF } }

/-- The request in progress gains the OVERRUN marker (11, R175). -/
def markOverrun (s : State) : State := { s with link := { s.link with overrun := true } }

/-- A valid request frame of n payload bytes heard, whatever its command and the link state: it wakes a PARKED part and
counts as a valid frame (10, R166, R167, R171; 12, R184). -/
def heard (n : Nat) (s : State) : State := validFrame (driveHigh (n + 3) (wake .link s))

/-- A valid request frame of n payload bytes taken: what stands when its owner gets it (11, R175). -/
def taken (n : Nat) (s : State) : State := openRequest (heard n s)

/-- A valid request frame with a payload of n bytes: its request is taken by its owner; while the link is WORKING it is
only an OVERRUN (11, R175). -/
def requestFrame (n : Nat) (owner : State → State) (s : State) : State :=
  match s.link.state with
  | .working => markOverrun (heard n s)
  | _ => owner (taken n s)

/-- A host request as a command. -/
def hostRequest (n : Nat) (owner : State → State) (s : State) : Host.Outcome State Fault Refusal :=
  event (requestFrame n owner) s

/-- Every request but DEVICE_STATUS is answered NOT_READY before the scan completes (09, R162; 11, R176; log
entry 11). -/
def ready (owner : State → State) (s : State) : State :=
  if s.store.scanDone then owner s else reply .notReady [] s

/-- An operand that is no code of its field is refused with BAD_ARGUMENT (11, R176). -/
def needs {α : Type} (x : Option α) (owner : α → State → State) (s : State) : State :=
  match x with
  | some v => owner v s
  | none => reply .badArgument [] s

/-- ATTENTION_READ: the set, which is emptied in the same event (11, R180). -/
def reqAttentionRead (s : State) : State :=
  ready (fun s => reply .ok (bytes2 s.link.flags.toNat) { s with link := { s.link with flags := 0 } }) s

/-- ATTENTION_MASK: the mask is replaced (11, R180). -/
def reqAttentionMask (mask : BitVec 16) (s : State) : State :=
  ready (fun s => reply .ok [] { s with link := { s.link with mask } }) s

/-- SETTINGS_READ: the working copy (11, R177). -/
def reqSettingsRead (s : State) : State := ready (fun s => reply .ok (settingsPayload s.link.settings) s) s

/-- DEVICE_STATUS is answered in every state of the part and changes nothing (11, R179). -/
def reqDeviceStatus (s : State) : State := reply .ok (statusPayload s) s

/-- The meaning of DEVICE_STATUS. -/
def execDeviceStatus (s : State) : Host.Outcome State Fault Refusal := hostRequest 0 reqDeviceStatus s

/-- The meaning of ATTENTION_READ. -/
def execAttentionRead (s : State) : Host.Outcome State Fault Refusal := hostRequest 0 reqAttentionRead s

/-- The meaning of ATTENTION_MASK. -/
def execAttentionMask (mask : BitVec 16) (s : State) : Host.Outcome State Fault Refusal :=
  hostRequest 2 (reqAttentionMask mask) s

/-- The meaning of SETTINGS_READ. -/
def execSettingsRead (s : State) : Host.Outcome State Fault Refusal := hostRequest 0 reqSettingsRead s

end Sys2Proof.Machine
end

