-- ==== Sys2Proof/Machine/Keys.lean ====
section
/-! DEFINITION. The Key Table Unit (01): lookups, changes and their persists, the enrollment window, verdicts on
frames; and the meanings of the key requests and of ENROLL_WINDOW_EXPIRY. -/

namespace Sys2Proof.Machine

open Sys2Proof

/-- The slots by number. -/
def allSlots : List (Fin 8) := [0, 1, 2, 3, 4, 5, 6, 7]

/-- A record is ACTIVE or SUSPENDED (01, R2). -/
def usable (k : KeyStored) : Bool := k.state = .active || k.state = .suspended

/-- A record is an ACTIVE MASTER (01, R15). -/
def activeMaster (k : KeyStored) : Bool := k.state = .active && k.role = .master

/-- How many ACTIVE MASTER records the working copies hold (01, R15). -/
def masterCount (recs : Vector KeyRecord 8) : Nat :=
  (allSlots.filter fun i => activeMaster (look recs i).stored).length

/-- The slot of the ACTIVE or SUSPENDED record that holds an identity (01, R9; 02, R22). -/
def findIdentity (s : State) (identity : BitVec 32) : Option (Fin 8) :=
  allSlots.find? fun i => usable (keyAt s i).stored && (keyAt s i).stored.identity = some identity

/-! ### Changes (01, R6, R10 to R15, R19) -/

/-- The record as a change leaves it (01, R10 to R14). -/
def changed (k : KeyRecord) : KeyChange → KeyRecord
  | .enroll identity secret role counter profile =>
    { k with stored := { state := .active, identity := some identity, secret, role, counter, profile },
             resync := none, rejects := 0, batteryLow := false }
  | .profile p => { k with stored := { k.stored with profile := p } }
  | .role r => { k with stored := { k.stored with role := r } }
  | .suspend => { k with stored := { k.stored with state := .suspended } }
  | .resume => { k with stored := { k.stored with state := .active } }
  | .revoke => { k with stored := KeyStored.empty, resync := none, rejects := 0, batteryLow := false }

/-- Check 3 of 01, R19: permission. -/
def keyPermitted (s : State) (k : KeyStored) : KeyChange → Bool
  | .enroll _ _ role _ _ =>
    s.keys.window.isSome || (role = .master && masterCount s.keys.recs = 0)
  | .profile _ => true
  | .role _ => s.keys.window.isSome || !usable k
  | .suspend => s.keys.window.isSome || !usable k
  | .resume => s.keys.window.isSome || !usable k
  | .revoke => s.keys.window.isSome || !usable k

/-- Check 4 of 01, R19: the slot's state. -/
def keySlotStatus (k : KeyStored) : KeyChange → Option Status
  | .enroll _ _ _ _ _ => if k.state = .empty then none else some .slotBusy
  | .revoke => if k.state = .empty then some .notFound else none
  | _ =>
    match k.state with
    | .empty => some .notFound
    | .damaged => some (.refused .damaged)
    | .active => none
    | .suspended => none

/-- Check 5 of 01, R19: the identity of an enrollment is free. -/
def identityTaken (s : State) : KeyChange → Bool
  | .enroll identity _ _ _ _ => (findIdentity s identity).isSome
  | _ => false

/-- Check 6 of 01, R19: the change would take the last ACTIVE MASTER away (01, R15). -/
def takesLastMaster (s : State) (i : Fin 8) (c : KeyChange) : Bool :=
  1 ≤ masterCount s.keys.recs && masterCount (put s.keys.recs i (changed (keyAt s i) c)) = 0

/-- The changes that 01, R15 governs. -/
def masterChecked : KeyChange → Bool
  | .role _ => true
  | .suspend => true
  | .revoke => true
  | .enroll _ _ _ _ _ => false
  | .profile _ => false
  | .resume => false

/-- Checks 3 to 6 of 01, R19, made when the change begins. -/
def keyCheck (s : State) (i : Fin 8) (c : KeyChange) : Option Status :=
  let k := (keyAt s i).stored
  if keyPermitted s k c = false then some .noWindow
  else
    match keySlotStatus k c with
    | some st => some st
    | none =>
      if identityTaken s c then some .duplicateId
      else if masterChecked c && takesLastMaster s i c then some .lastMaster
      else none

/-- Check 7 of 01, R19: nothing to change. -/
def nothingToChange (k : KeyRecord) : KeyChange → Bool
  | .enroll _ _ _ _ _ => false
  | .revoke => false
  | c => changed k c = k

/-- A host change begins: its checks, then the working copy, the marker and the write; the reply waits for the
write (01, R6, R7, R19). -/
def beginChange (i : Fin 8) (c : KeyChange) (s : State) : State :=
  match keyCheck s i c with
  | some st => reply st [] s
  | none =>
    if nothingToChange (keyAt s i) c then reply .ok [] s
    else
      let k := { changed (keyAt s i) c with marker := .linkChange }
      offer (.key i) (.key k.stored) [.linkChange i] (setKey i k s)

/-- A host change to a slot begins, or waits for the record's marker (01, R6). -/
def requestChange (i : Fin 8) (c : KeyChange) (s : State) : State :=
  if (keyAt s i).marker = .none then beginChange i c s
  else { s with keys := { s.keys with waiting := some (i, c) } }

/-- The host change that waits on a record begins once its marker is none (01, R6). -/
def beginWaiting (i : Fin 8) (s : State) : State :=
  match s.keys.waiting with
  | none => s
  | some (j, c) =>
    if j = i then beginChange i c { s with keys := { s.keys with waiting := none } } else s

/-- A record's marker returns to none (01, R6). -/
def clearMarker (i : Fin 8) (s : State) : State := setKey i { keyAt s i with marker := .none } s

/-! ### Verdicts on frames (01, R5) -/

/-- An accept: counter, pending value, reject count, battery flag, marker and the counter persist. -/
def acceptCounter (i : Fin 8) (counter : BitVec 24) (batteryLow : Bool) (s : State) : State :=
  let k := keyAt s i
  let k := { k with stored := { k.stored with counter }, resync := none, rejects := 0, batteryLow,
                    marker := .counterPersist }
  offer (.key i) (.key k.stored) [.counterPersist i] (setKey i k s)

/-- A reject: the count up to 255, and the pending value if one is given. -/
def rejectFrame (i : Fin 8) (pending : Option (BitVec 24 × Nat)) (s : State) : State :=
  let k := keyAt s i
  setKey i { k with rejects := min 255 (k.rejects + 1), resync := pending.or k.resync } s

/-! ### Requests -/

/-- KEY_LOOKUP (01, R8). -/
def reqKeyLookup (slot : Byte) (s : State) : State :=
  ready (needs (slotOf slot) fun i s => reply .ok (keyPayload i (keyAt s i) s.now) s) s

/-- KEY_FIND (01, R9). -/
def reqKeyFind (identity : BitVec 32) (s : State) : State :=
  ready (fun s =>
    match findIdentity s identity with
    | some i => reply .ok [byte i.val] s
    | none => reply .notFound [] s) s

/-- KEY_ENROLL (01, R10). -/
def reqKeyEnroll (slot : Byte) (identity : BitVec 32) (secret : BitVec 128) (role : Byte) (counter : BitVec 24)
    (unlockMode passiveEntry comfortWindows : Byte) (s : State) : State :=
  ready (needs (slotOf slot) fun i => needs (roleOf role) fun r =>
    needs (profileOf unlockMode passiveEntry comfortWindows) fun p =>
      requestChange i (.enroll identity secret r counter p)) s

/-- KEY_PROFILE (01, R11). -/
def reqKeyProfile (slot unlockMode passiveEntry comfortWindows : Byte) (s : State) : State :=
  ready (needs (slotOf slot) fun i => needs (profileOf unlockMode passiveEntry comfortWindows) fun p =>
    requestChange i (.profile p)) s

/-- KEY_ROLE (01, R12). -/
def reqKeyRole (slot role : Byte) (s : State) : State :=
  ready (needs (slotOf slot) fun i => needs (roleOf role) fun r => requestChange i (.role r)) s

/-- KEY_SUSPEND (01, R13). -/
def reqKeySuspend (slot : Byte) (s : State) : State :=
  ready (needs (slotOf slot) fun i => requestChange i .suspend) s

/-- KEY_RESUME (01, R13). -/
def reqKeyResume (slot : Byte) (s : State) : State :=
  ready (needs (slotOf slot) fun i => requestChange i .resume) s

/-- KEY_REVOKE (01, R14). -/
def reqKeyRevoke (slot : Byte) (s : State) : State :=
  ready (needs (slotOf slot) fun i => requestChange i .revoke) s

/-- ENROLL_OPEN: an ENROLL search in zone INTERIOR, the reply withheld (01, R17). -/
def reqEnrollOpen (s : State) : State := ready (requestSearch .interior .enroll [.link]) s

/-- The result of an ENROLL search: the lowest slot of the set that is ACTIVE MASTER as the table stands opens
the window for 30 s (01, R16, R17). -/
def enrollResult (found : List (Fin 8)) (s : State) : State :=
  match allSlots.find? fun i => found.contains i && activeMaster (keyAt s i).stored with
  | some i =>
    replyResult .opened [byte i.val]
      { s with keys := { s.keys with window := some { expiry := s.now + Times.enrollTime, slot := i } } }
  | none => replyResult .noMaster [] s

/-- The enrollment window closes at its expiry (01, R16). -/
def enrollExpiry (s : State) : State :=
  match s.keys.window with
  | none => s
  | some w => let s := clockTo w.expiry s; { s with keys := { s.keys with window := none } }

/-! ### Meanings -/

/-- The meaning of KEY_LOOKUP. -/
def execKeyLookup (slot : Byte) (s : State) : Host.Outcome State Fault Refusal := hostRequest 1 (reqKeyLookup slot) s

/-- The meaning of KEY_FIND. -/
def execKeyFind (identity : BitVec 32) (s : State) : Host.Outcome State Fault Refusal :=
  hostRequest 4 (reqKeyFind identity) s

/-- The meaning of KEY_ENROLL. -/
def execKeyEnroll (slot : Byte) (identity : BitVec 32) (secret : BitVec 128) (role : Byte) (counter : BitVec 24)
    (unlockMode passiveEntry comfortWindows : Byte) (s : State) : Host.Outcome State Fault Refusal :=
  hostRequest 28 (reqKeyEnroll slot identity secret role counter unlockMode passiveEntry comfortWindows) s

/-- The meaning of KEY_PROFILE. -/
def execKeyProfile (slot unlockMode passiveEntry comfortWindows : Byte) (s : State) :
    Host.Outcome State Fault Refusal :=
  hostRequest 4 (reqKeyProfile slot unlockMode passiveEntry comfortWindows) s

/-- The meaning of KEY_ROLE. -/
def execKeyRole (slot role : Byte) (s : State) : Host.Outcome State Fault Refusal :=
  hostRequest 2 (reqKeyRole slot role) s

/-- The meaning of KEY_SUSPEND. -/
def execKeySuspend (slot : Byte) (s : State) : Host.Outcome State Fault Refusal :=
  hostRequest 1 (reqKeySuspend slot) s

/-- The meaning of KEY_RESUME. -/
def execKeyResume (slot : Byte) (s : State) : Host.Outcome State Fault Refusal := hostRequest 1 (reqKeyResume slot) s

/-- The meaning of KEY_REVOKE. -/
def execKeyRevoke (slot : Byte) (s : State) : Host.Outcome State Fault Refusal := hostRequest 1 (reqKeyRevoke slot) s

/-- The meaning of ENROLL_OPEN. -/
def execEnrollOpen (s : State) : Host.Outcome State Fault Refusal := hostRequest 0 reqEnrollOpen s

/-- The meaning of ENROLL_WINDOW_EXPIRY. -/
def execEnrollWindowExpiry (s : State) : Host.Outcome State Fault Refusal := event enrollExpiry s

end Sys2Proof.Machine
end

