-- ==== Sys2Proof/Machine/Entry.lean ====
section
/-! DEFINITION. The Entry Unit (02): fob frames and their judging, LF searches, passive firings, the latest access
record; and the meanings of its rows. -/

namespace Sys2Proof.Machine

open Sys2Proof

/-! ### Bursts (12, R183) -/

/-- What a burst on RFIN is. -/
inductive Burst where
  | malformed
  | command (f : CommandFrame)
  | response (identity response : BitVec 32)
deriving DecidableEq, Repr

/-- Four bytes as a number, most significant first. -/
def word32 (a b c d : Byte) : BitVec 32 := a ++ b ++ c ++ d

/-- A burst judged against its kind byte, its length and its command byte. -/
def readBurst (bs : List Byte) : Burst :=
  match bs with
  | [k, i0, i1, i2, i3, c0, c1, c2, cmd, k0, k1, k2, k3] =>
    if k = 0x01 ∧ cmd &&& 0x78 = 0 then
      match fobCommandOf (cmd &&& 0x07).toNat with
      | some command =>
        .command { identity := word32 i0 i1 i2 i3, counter := c0 ++ c1 ++ c2, command,
                   batteryLow := cmd.getLsbD 7, check := word32 k0 k1 k2 k3 }
      | none => .malformed
    else .malformed
  | [k, i0, i1, i2, i3, r0, r1, r2, r3] =>
    if k = 0x02 then .response (word32 i0 i1 i2 i3) (word32 r0 r1 r2 r3) else .malformed
  | _ => .malformed

/-! ### The latest access record (02, R31) -/

/-- The record is overwritten, all three fields together. -/
def writeAccess (slot : Fin 8) (c : AccessCommand) (r : AccessResult) (s : State) : State :=
  { s with entry := { s.entry with access := some { slot, command := c, result := r } } }

/-- A fob command as an access command. -/
def accessOfFob : FobCommand → AccessCommand
  | .lock => .lock
  | .unlock => .unlock
  | .tailgate => .tailgate
  | .holdClose => .holdClose
  | .holdOpen => .holdOpen

/-- The engine's answer as an access result (02, R30). -/
def resultOfAnswer : FiringAnswer → AccessResult
  | .fired => .fired
  | .triggerDisabled => .triggerDisabled
  | .triggerParked => .triggerParked

/-! ### Judging a frame (02, R22 to R27) -/

/-- The counter classes by d (02, R24). -/
inductive CounterClass where | stale | inWindow | resync | far
deriving DecidableEq, Repr

/-- The class of a frame's counter F against the record's counter C, by (F − C) modulo 2^24 (02, R24). -/
def counterClass (f c : BitVec 24) : CounterClass :=
  let d := (f - c).toNat
  if d = 0 then .stale
  else if d ≤ 64 then .inWindow
  else if d ≤ 16384 then .resync
  else if d ≤ 8388607 then .far
  else .stale

/-- A RESYNC frame is confirmed: its predecessor is pending and at most 3,000 ms old (02, R25). -/
def resyncConfirmed (k : KeyRecord) (f : StampedFrame) : Bool :=
  match k.resync with
  | none => false
  | some (fp, tp) => f.frame.counter - fp = 1 && f.arrival - tp ≤ Times.resyncTime

/-- A verdict on a frame matched to a record. -/
inductive Verdict where
  | accept
  | reject (r : RejectReason)
deriving DecidableEq, Repr

/-- The verdict on a frame matched to a record (02, R22 to R25). -/
def verdict (k : KeyRecord) (f : StampedFrame) : Verdict :=
  let x := f.frame
  if k.stored.state = .suspended then .reject .suspended
  else if Config.frameCheck k.stored.secret x.identity x.counter (BitVec.ofNat 3 (fobCommandCode x.command)) ≠
      x.check then .reject .check
  else
    match counterClass x.counter k.stored.counter with
    | .stale => .reject .stale
    | .inWindow => .accept
    | .far => .reject .far
    | .resync => if resyncConfirmed k f then .accept else .reject .resyncPending

/-- The frame in processing set or ended. -/
def setProcessing (p : Option Processing) (s : State) : State := { s with entry := { s.entry with processing := p } }

/-- A reject (02, R26): the record, KEY_REJECT, the access record; processing ends. -/
def reject (i : Fin 8) (f : StampedFrame) (r : RejectReason) (s : State) : State :=
  let pending := if r = .resyncPending then some (f.frame.counter, f.arrival) else none
  setProcessing none
    (writeAccess i (accessOfFob f.frame.command) (.rejected r) (raise .keyReject (rejectFrame i pending s)))

/-- A frame is matched and judged (02, R22 to R27). A frame of no key is dropped; one whose record has a host
change in progress waits at the match; an accept keeps its place until its counter is stored. -/
def judge (f : StampedFrame) (s : State) : State :=
  match findIdentity s f.frame.identity with
  | none => setProcessing none s
  | some i =>
    if (keyAt s i).marker = .linkChange then setProcessing (some { stamped := f, stage := .atMatch i }) s
    else
      match verdict (keyAt s i) f with
      | .reject r => reject i f r s
      | .accept =>
        setProcessing (some { stamped := f, stage := .accepted i })
          (acceptCounter i f.frame.counter f.frame.batteryLow s)

/-- The head of the RF receive queue is taken once the scan has completed and no frame is in processing
(02, R21). -/
def frameTake (s : State) : State :=
  if s.store.scanDone && s.entry.processing.isNone then
    match s.entry.rfQueue with
    | [] => s
    | f :: rest => judge f { s with entry := { s.entry with rfQueue := rest } }
  else s

/-! ### From command to firing (02, R28 to R30) -/

/-- The trigger of a fob command (02, R28). -/
def fobTrigger : FobCommand → Trigger
  | .lock => .fobLock
  | .unlock => .fobUnlock
  | .tailgate => .fobTailgate
  | .holdClose => .fobCloseAll
  | .holdOpen => .fobOpenAll

/-- HOLD_CLOSE and HOLD_OPEN carry the hold mark (02, R28). -/
def isHold : FobCommand → Bool
  | .holdClose => true
  | .holdOpen => true
  | .lock => false
  | .unlock => false
  | .tailgate => false

/-- The held command of an accepted frame is carried out: fired, or NOT_PERMITTED; processing ends
(02, R27 step 3, R28, R29, R30). -/
def carryOut (i : Fin 8) (f : StampedFrame) (s : State) : State :=
  let c := f.frame.command
  let k := (keyAt s i).stored
  if isHold c && (!k.profile.comfortWindows || s.vehicle.powerMode ≠ .off) then
    setProcessing none (writeAccess i (accessOfFob c) .notPermitted s)
  else
    let firing : Firing :=
      { trigger := fobTrigger c,
        carried := { origin := driverAperture s, role := k.role, slot := some i, profile := some k.profile },
        holdMark := isHold c, request := none }
    let (s, answer) := fire firing s
    setProcessing none (writeAccess i (accessOfFob c) (resultOfAnswer answer) s)

/-- The counter write of a slot has completed: the accepted frame of that slot is carried out (02, R27). -/
def counterStored (i : Fin 8) (s : State) : State :=
  match s.entry.processing with
  | some { stamped, stage := .accepted j } => if j = i then carryOut i stamped s else s
  | _ => s

/-- A host change's write has completed: a frame that waits at that record's match goes on, its lookup made again
(01, R6; 02, R22). -/
def matchResumed (i : Fin 8) (s : State) : State :=
  match s.entry.processing with
  | some { stamped, stage := .atMatch j } => if j = i then judge stamped s else s
  | _ => s

/-! ### Arrivals (02, R20, R21, R36) -/

/-- A command frame is offered to the RF receive queue, which holds at most 2 (02, R21). -/
def offerFrame (f : CommandFrame) (s : State) : State :=
  if s.entry.rfQueue.length < 2 then
    { s with entry := { s.entry with rfQueue := s.entry.rfQueue ++ [{ frame := f, arrival := s.now }] } }
  else s

/-- A response is correct for a candidate of a search (02, R36). -/
def responseCorrect (x : Search) (identity response : BitVec 32) (c : Candidate) : Bool :=
  c.identity = identity && Config.responseOf c.secret c.identity x.challenge = response

/-- A response frame: with a response window open, the correct candidates' slots join the result set (02, R36). -/
def takeResponse (identity response : BitVec 32) (s : State) : State :=
  match s.entry.search with
  | none => s
  | some x =>
    if x.windowOpen then
      let slots := (x.candidates.filter (responseCorrect x identity response)).map Candidate.slot
      let fresh := slots.filter fun i => !x.found.contains i
      { s with entry := { s.entry with search := some { x with found := x.found ++ fresh } } }
    else s

/-- A burst arrives at RFIN: it wakes a PARKED part, and is sorted (02, R20; 10, R171). -/
def rfArrival (bs : List Byte) (s : State) : State :=
  let s := wake .rf s
  match readBurst bs with
  | .malformed => s
  | .command f => offerFrame f s
  | .response i r => takeResponse i r s

/-! ### Searches (02, R32, R35, R37) -/

/-- A record is a candidate for a purpose (02, R32). -/
def isCandidate (p : Purpose) (k : KeyStored) : Bool :=
  k.state = .active &&
    match p with
    | .unlockTouch => k.profile.passiveEntry
    | .lockTouch => k.profile.passiveEntry
    | .tailgateButton => k.profile.passiveEntry
    | .insideCheck => true
    | .enroll => true

/-- The candidate list captured at the start of a search, in slot order (02, R35). -/
def candidates (s : State) (p : Purpose) : List Candidate :=
  (allSlots.filter fun i => isCandidate p (keyAt s i).stored).map fun i =>
    let k := (keyAt s i).stored
    { slot := i, identity := k.identity.getD 0, secret := k.secret, role := k.role, profile := k.profile }

/-- The head of the search queue becomes the search in flight (02, R35). -/
def searchStart (s : State) : State :=
  if s.store.scanDone && s.entry.search.isNone then
    match s.entry.queue with
    | [] => s
    | q :: rest =>
      let x : Search :=
        { zone := q.zone, purpose := q.purpose, challenge := Config.challenge s.free, start := s.now,
          windowOpen := false, candidates := candidates s q.purpose, found := [], waiters := q.waiters }
      { s with free := s.free + 1, entry := { s.entry with queue := rest, search := some x } }
  else s

/-- The challenge transmission ends 8 ms after the start and the response window opens (02, R36). -/
def challengeEnd (s : State) : State :=
  match s.entry.search with
  | none => s
  | some x =>
    if x.windowOpen then s
    else
      let s := clockTo (x.start + Times.transmitTime) s
      { s with entry := { s.entry with search := some { x with windowOpen := true } } }

/-- The origin of a touch or tailgate search: FL or FR for a handle, TG for the tailgate (02, R32). -/
def searchOrigin (z : Zone) : Aperture :=
  match z with
  | .left => .fl
  | .right => .fr
  | .rear => .tg
  | .interior => .fl

/-- A touch or tailgate search's trigger and access command (02, R38). -/
def passiveOf : Purpose → Option (Trigger × AccessCommand)
  | .unlockTouch => some (.passiveUnlock, .unlockTouch)
  | .lockTouch => some (.passiveLock, .lockTouch)
  | .tailgateButton => some (.passiveTailgate, .tailgateButton)
  | .insideCheck => none
  | .enroll => none

/-- A passive search that found a key fires its trigger for the lowest slot, as captured (02, R38). -/
def passiveResult (x : Search) (t : Trigger) (c : AccessCommand) (s : State) : State :=
  match x.candidates.find? fun k => x.found.contains k.slot with
  | none => s
  | some k =>
    let firing : Firing :=
      { trigger := t,
        carried := { origin := searchOrigin x.zone, role := k.role, slot := some k.slot, profile := some k.profile },
        holdMark := false, request := none }
    let (s, answer) := fire firing s
    writeAccess k.slot c (resultOfAnswer answer) s

/-- An INSIDE_CHECK result reaches one waiter, a run that still waits (02, R37, R40; 07, R139; 08, R148). -/
def insideResult (found : Bool) (s : State) (w : SearchWaiter) : State :=
  match w with
  | .link => s
  | .run t serial =>
    match runAt s t with
    | none => s
    | some r =>
      if r.serial = serial ∧ r.searchWait = true then
        setRun t (some { r with searchWait := false, searchResult := some found }) s
      else s

/-- The response window closes 48 ms after the start; the result is delivered by purpose (02, R37). -/
def searchComplete (s : State) : State :=
  match s.entry.search with
  | none => s
  | some x =>
    if x.windowOpen then
      let s := clockTo (x.start + Times.searchTime) s
      let s := { s with entry := { s.entry with search := none } }
      match passiveOf x.purpose with
      | some (t, c) => finishEvent (passiveResult x t c s)
      | none =>
        match x.purpose with
        | .insideCheck => finishEvent (x.waiters.foldl (insideResult (!x.found.isEmpty)) s)
        | _ => enrollResult x.found s
    else s

/-! ### Meanings -/

/-- The meaning of RF_FRAME_ARRIVAL. -/
def execRfFrameArrival (burst : List Byte) (s : State) : Host.Outcome State Fault Refusal :=
  event (rfArrival burst) s

/-- The meaning of FRAME_TAKE. -/
def execFrameTake (s : State) : Host.Outcome State Fault Refusal := event frameTake s

/-- The meaning of SEARCH_START. -/
def execSearchStart (s : State) : Host.Outcome State Fault Refusal := event searchStart s

/-- The meaning of CHALLENGE_END. -/
def execChallengeEnd (s : State) : Host.Outcome State Fault Refusal := event challengeEnd s

/-- The meaning of SEARCH_COMPLETE. -/
def execSearchComplete (s : State) : Host.Outcome State Fault Refusal := event searchComplete s

end Sys2Proof.Machine
end

