-- ==== Sys2Proof/Machine/Inputs.lean ====
section
/-! DEFINITION. The Input Qualifier (03) and the deferral of requests at the Latch Units (04, R67): raw levels,
qualification, deliveries, deferred requests, supply, vehicle state, the window switch gate; and the meanings of its
rows. -/

namespace Sys2Proof.Machine

open Sys2Proof

/-! ### Raw levels (03, R44) -/

/-- A raw level read: a change restarts the qualification timing. -/
def rawQual {α : Type} [DecidableEq α] (x : α) (now : Nat) (q : Qual α) : Qual α :=
  if q.raw = x then q else { q with raw := x, since := now }

/-- A pad's contact read (03, R46). -/
def rawPad (x : Bool) (now : Nat) (p : PadState) : PadState :=
  if p.contact = x then p else { p with contact := x, since := now }

/-- A rocker's two contacts read: both made reads as NEUTRAL (03, R45). -/
def rockerOf (lockMade unlockMade : Bool) : RockerPos :=
  match lockMade, unlockMade with
  | true, false => .lock
  | false, true => .unlock
  | true, true => .neutral
  | false, false => .neutral

/-- The switch record of a window switch. -/
def switchAt (x : Inputs) : WinSwitch → WindowSwitch
  | .pack d => x.pack.get d
  | .rearDoor r => x.rearDoor.get r
  | .passenger => x.passenger

/-- A window switch record replaced. -/
def setSwitch (w : WinSwitch) (v : WindowSwitch) (x : Inputs) : Inputs :=
  match w with
  | .pack d => { x with pack := x.pack.set d v }
  | .rearDoor r => { x with rearDoor := x.rearDoor.set r v }
  | .passenger => { x with passenger := v }

/-- The record of a pad. -/
def padAt (x : Inputs) : Pad → PadState
  | .flUnlock => x.padUnlock.fl
  | .flLock => x.padLock.fl
  | .frUnlock => x.padUnlock.fr
  | .frLock => x.padLock.fr

/-- A pad's record replaced. -/
def setPad (p : Pad) (v : PadState) (x : Inputs) : Inputs :=
  match p with
  | .flUnlock => { x with padUnlock := x.padUnlock.set .fl v }
  | .flLock => { x with padLock := x.padLock.set .fl v }
  | .frUnlock => { x with padUnlock := x.padUnlock.set .fr v }
  | .frLock => { x with padLock := x.padLock.set .fr v }

/-- The raw levels after a change (03, R44 to R48); a combination that matches no window switch position is read
as NEUTRAL (R48). -/
def rawInputs (c : RawChange) (now : Nat) (x : Inputs) : Inputs :=
  match c with
  | .lockSwitch a m =>
    let q := x.pair.get a
    { x with pair := x.pair.set a (rawQual { q.raw with lock := m } now q) }
  | .deadlockSwitch d m =>
    let q := x.pair.get (doorAperture d)
    { x with pair := x.pair.set (doorAperture d) (rawQual { q.raw with dead := m } now q) }
  | .childSwitch r v => { x with childSwitch := x.childSwitch.set r (rawQual v now (x.childSwitch.get r)) }
  | .ajar a v => { x with ajar := x.ajar.set a (rawQual v now (x.ajar.get a)) }
  | .handle d v => { x with handle := x.handle.set d (rawQual v now (x.handle.get d)) }
  | .rocker f l u => { x with rocker := x.rocker.set f (rawQual (rockerOf l u) now (x.rocker.get f)) }
  | .childButton v => { x with childButton := rawQual v now x.childButton }
  | .tailgateButton v => { x with tailgateButton := rawQual v now x.tailgateButton }
  | .pad p v => setPad p (rawPad v now (padAt x p)) x
  | .windowSwitch w pos =>
    let v := switchAt x w
    setSwitch w { v with pos := rawQual (pos.getD .neutral) now v.pos } x
  | .crashLine v =>
    let l := x.crashLine
    { x with crashLine := if l.asserted = v then l else { l with asserted := v, since := now } }

/-- A raw level changes. The wires change whether or not the part is held in a reset (log entry 13). -/
def rawChange (c : RawChange) (s : State) : State := { s with inputs := rawInputs c s.now s.inputs }

/-! ### Qualification (03, R44, R45) -/

/-- A qualified value is about to change or, for an input that takes "the first value held", to be taken. -/
def due {α : Type} [DecidableEq α] (takesFirst : Bool) (q : Qual α) : Bool :=
  q.raw ≠ q.value || (takesFirst && !q.first)

/-- The raw value qualified. -/
def qualified {α : Type} (q : Qual α) : Qual α := { q with value := q.raw, first := true }

/-- The input record replaced. -/
def setInputs (x : Inputs) (s : State) : State := { s with inputs := x }

/-- The sensed state of a combination; TG's deadlock level is read as open (04, R60). -/
def sensedOf (a : Aperture) (v : Levels) : LatchState :=
  match v.lock, v.dead && a ≠ .tg with
  | false, false => .unlocked
  | true, false => .locked
  | true, true => .deadlocked
  | false, true => .invalid

/-! ### Window switches (03, R48, R56) -/

/-- The window switch gate is open (03, R56). -/
def gateOpen (s : State) : Bool :=
  s.store.scanDone && s.sup.mode ≠ .parked && (s.vehicle.powerMode ≠ .off || s.vehicle.retained.isSome)

/-- The window a switch serves, and whether it is the door's own switch; the front passenger door is the front door
that is not the driver aperture (03, R48). -/
def servedWindow (s : State) : WinSwitch → Door × Bool
  | .pack d => (d, false)
  | .rearDoor r => (rearDoorOf r, true)
  | .passenger => (if s.link.settings.driverFr then .fl else .fr, true)

/-- A position is delivered to the Window Unit, and becomes the delivered position (03, R48). -/
def deliverSwitch (w : WinSwitch) (new : SwitchPos) (s : State) : State :=
  let v := switchAt s.inputs w
  let (d, own) := servedWindow s w
  switchDelivery d own v.delivered new (setInputs (setSwitch w { v with delivered := new } s.inputs) s)

/-- A switch whose delivered position is not NEUTRAL is delivered NEUTRAL. -/
def releaseSwitch (s : State) (w : WinSwitch) : State :=
  if (switchAt s.inputs w).delivered = .neutral then s else deliverSwitch w .neutral s

/-- When the gate closes, every switch not at NEUTRAL is delivered NEUTRAL; with the gate open nothing happens
(03, R56). -/
def closeGate (s : State) : State := if gateOpen s then s else allWinSwitches.foldl releaseSwitch s

/-- A qualified switch position: NEUTRAL is delivered when the delivered position is another; any other position only
through an open gate (03, R56). -/
def switchQualified (w : WinSwitch) (s : State) : State :=
  let v := switchAt s.inputs w
  let pos := v.pos.raw
  let s := setInputs (setSwitch w { v with pos := qualified v.pos } s.inputs) s
  if pos = .neutral then releaseSwitch s w
  else if gateOpen s then deliverSwitch w pos s
  else s

/-! ### Requests from inside the car, and their deferral (04, R67, R69, R70, R75) -/

/-- A latch drive or a held latch request goes toward one of the given targets. -/
def latchGoes (u : LatchUnit) (toward : HeldTarget → Bool) : Bool :=
  u.drive.any (fun d => actuatorOf d.target = .latch && toward d.target) ||
    u.held.any (fun h => actuatorOf h.target = .latch && toward h.target)

/-- The child-lock target of a side door; a front door has none. -/
def childLocked (s : State) (d : Door) : Bool :=
  match d with
  | .rl => (childAt s .rl).target
  | .rr => (childAt s .rr).target
  | .fl => false
  | .fr => false

/-- A pull asks for an unlock (04, R69). -/
def pullUnlocks (s : State) (d : Door) : Bool :=
  let u := latchAt s (doorAperture d)
  !childLocked s d &&
    match u.sensed with
    | .deadlocked => false
    | .locked => !latchGoes u (· = .unlocked)
    | .unlocked => latchGoes u (· ≠ .unlocked)
    | .invalid => false

/-- An inside-handle pull judged at delivery (04, R69). -/
def handlePull (d : Door) (s : State) : State :=
  if pullUnlocks s d then (requestLatch (doorAperture d) .unlocked .handle [] s).1 else s

/-- A rocker press fires INSIDE_LOCK or INSIDE_UNLOCK unless the door is sensed DEADLOCKED (04, R70). -/
def rockerPress (f : Front) (toLock : Bool) (s : State) : State :=
  let a := doorAperture (frontDoorOf f)
  if (latchAt s a).sensed = .deadlocked then s
  else (fire (systemFiring (if toLock then .insideLock else .insideUnlock) a) s).1

/-- A child-lock button press: OFF at both rear doors when both targets are ON, else ON at both (04, R75). -/
def childPress (s : State) : State :=
  let target : HeldTarget := if (childAt s .rl).target && (childAt s .rr).target then .off else .on
  let s := (requestLatch .rl target .childButton [] s).1
  (requestLatch .rr target .childButton [] s).1

/-- A deferred request's conditions have ceased (04, R67; the child-lock button: log entry 20). -/
def mayTake (s : State) : Deferred → Bool
  | .pull d => s.store.scanDone && pairQualified s (doorAperture d)
  | .rocker f _ => s.store.scanDone && pairQualified s (doorAperture (frontDoorOf f))
  | .childButton =>
    s.store.scanDone && pairQualified s .rl && pairQualified s .rr && childQualified s .rl && childQualified s .rr
  | .release => s.store.scanDone && pairQualified s .tg
  | .chain a target _ _ => !chainDeferred s a target

/-- A request is taken. A chain's own earlier request that it replaces is told nothing (08, R150). -/
def takeNow (x : Deferred) (s : State) : State :=
  match x with
  | .pull d => handlePull d s
  | .rocker f l => rockerPress f l s
  | .childButton => childPress s
  | .release => (requestLatch .tg .release .handle [] s).1
  | .chain a target t tag => discardOwn t tag a (requestLatch a target (.chain t) [tag] s).1

/-- A request is deferred. -/
def defer (x : Deferred) (s : State) : State :=
  { s with latches := { s.latches with deferred := s.latches.deferred ++ [x] } }

/-- A request is taken at its delivery, or deferred (04, R67). -/
def takeOrDefer (x : Deferred) (s : State) : State := if mayTake s x then takeNow x s else defer x s

/-- The first request of a list whose conditions have ceased, and the others in their order. -/
def firstTakeable (s : State) : List Deferred → Option (Deferred × List Deferred)
  | [] => none
  | x :: rest => if mayTake s x then some (x, rest) else (firstTakeable s rest).map fun y => (y.1, x :: y.2)

/-- The first deferred request, in the order of delivery, whose conditions have ceased is taken, as one event; the
others keep their places, and the engine may choose before the next is taken (04, R67; 07, R127; 08, R145; log entry
47). -/
def deferredTake (s : State) : State :=
  match firstTakeable s s.latches.deferred with
  | none => s
  | some (x, rest) => finishEvent (takeNow x { s with latches := { s.latches with deferred := rest } })

/-! ### Deliveries (03, R45, R49 to R51, R59) -/

/-- A tailgate button press routed by TG's sensed state: LOCKED to the Entry Unit, otherwise to TG's Latch Unit
(03, R51). -/
def routeTailgate (s : State) : State :=
  if (latchAt s .tg).sensed = .locked then requestSearch .rear .tailgateButton [] s else takeOrDefer .release s

/-- A qualified press of the tailgate button: routed, or deferred until TG's pair has first qualified, in the order of
delivery with the other deferred requests (03, R51; 04, R67). -/
def tailgatePressed (s : State) : State :=
  if pairQualified s .tg then routeTailgate s else defer .release s

/-- TG's pair has first qualified and the presses that waited are routed by the state it takes: LOCKED gives each to
the Entry Unit, otherwise each keeps its place among the deferred requests (03, R51; 04, R67). -/
def routeWaiting (s : State) : State :=
  if (latchAt s .tg).sensed = .locked then
    let l := s.latches.deferred
    (l.filter (· = .release)).foldl (fun s _ => requestSearch .rear .tailgateButton [] s)
      { s with latches := { s.latches with deferred := l.filter (· ≠ .release) } }
  else s

/-- A qualified combination reaches its Latch Unit; TG's first one routes the presses that waited (03, R45, R51). -/
def pairDelivered (a : Aperture) (v : Levels) (first : Bool) (s : State) : State :=
  let s := latchSensed a (sensedOf a v) first s
  if a = .tg ∧ first = true then routeWaiting s else s

/-- The retained-power period ends, and the gate closes with it (03, R55, R56). -/
def endRetained (s : State) : State := closeGate { s with vehicle := { s.vehicle with retained := none } }

/-- An ajar change reaches the wake logic, the Chain Engine and the retained-power period (03, R50, R55; 07, R128,
R129). -/
def ajarDelivered (a : Aperture) (nowOpen : Bool) (s : State) : State :=
  let s := wake .ajar s
  if nowOpen then
    let s := stopRelock (armSpeedLock s)
    if a = .fl ∨ a = .fr then endRetained s else s
  else testSpeedLock s

/-- The zone and purpose of a pad (02, R32). -/
def padSearch : Pad → Zone × Purpose
  | .flUnlock => (.left, .unlockTouch)
  | .flLock => (.left, .lockTouch)
  | .frUnlock => (.right, .unlockTouch)
  | .frLock => (.right, .lockTouch)

/-- A touch wakes a PARKED part and, in power mode OFF, makes its search request (02, R33; 03, R46, R59). -/
def touched (p : Pad) (s : State) : State :=
  let s := wake .touch s
  if s.vehicle.powerMode = .off then requestSearch (padSearch p).1 (padSearch p).2 [] s else s

/-- A pad's time runs out: a touch after 50 ms of contact, READY after 20 ms without contact (03, R46). -/
def padExpiry (p : Pad) (s : State) : State :=
  let v := padAt s.inputs p
  match v.ready, v.contact with
  | true, true =>
    touched p (setInputs (setPad p { v with ready := false } s.inputs) (clockTo (v.since + Times.touchTime) s))
  | false, false =>
    setInputs (setPad p { v with ready := true } s.inputs) (clockTo (v.since + Times.padReleaseTime) s)
  | true, false => s
  | false, true => s

/-- The crash line's time runs out: a crash event after 2 ms asserted, READY after 2 ms deasserted (03, R47). -/
def crashExpiry (s : State) : State :=
  let v := s.inputs.crashLine
  match v.ready, v.asserted with
  | true, true =>
    crashEvent (wake .crash
      (setInputs { s.inputs with crashLine := { v with ready := false } } (clockTo (v.since + Times.crashTime) s)))
  | false, false =>
    setInputs { s.inputs with crashLine := { v with ready := true } } (clockTo (v.since + Times.crashTime) s)
  | true, false => s
  | false, true => s

/-- An input's qualification time runs out (03, R44, R45); an input with nothing to qualify is left alone. -/
def qualify (i : Input) (s : State) : State :=
  let x := s.inputs
  match i with
  | .pair a =>
    let q := x.pair.get a
    if due true q then
      pairDelivered a q.raw (!q.first)
        (setInputs { x with pair := x.pair.set a (qualified q) } (clockTo (q.since + Times.switchTime) s))
    else s
  | .childSwitch r =>
    let q := x.childSwitch.get r
    if due true q then
      childSensed r q.raw (!q.first)
        (setInputs { x with childSwitch := x.childSwitch.set r (qualified q) } (clockTo (q.since + Times.switchTime) s))
    else s
  | .ajar a =>
    let q := x.ajar.get a
    if due false q then
      ajarDelivered a q.raw
        (setInputs { x with ajar := x.ajar.set a (qualified q) } (clockTo (q.since + Times.ajarTime) s))
    else s
  | .handle d =>
    let q := x.handle.get d
    if due true q then
      let s := setInputs { x with handle := x.handle.set d (qualified q) } (clockTo (q.since + Times.switchTime) s)
      if q.first && q.raw then takeOrDefer (.pull d) (wake .handle s) else s
    else s
  | .rocker f =>
    let q := x.rocker.get f
    if due true q then
      let s := setInputs { x with rocker := x.rocker.set f (qualified q) } (clockTo (q.since + Times.switchTime) s)
      if q.first && q.raw ≠ .neutral then takeOrDefer (.rocker f (q.raw = .lock)) (wake .rocker s) else s
    else s
  | .childButton =>
    let q := x.childButton
    if due true q then
      let s := setInputs { x with childButton := qualified q } (clockTo (q.since + Times.switchTime) s)
      if q.first && q.raw then takeOrDefer .childButton s else s
    else s
  | .tailgateButton =>
    let q := x.tailgateButton
    if due true q then
      let s := setInputs { x with tailgateButton := qualified q } (clockTo (q.since + Times.switchTime) s)
      if q.first && q.raw then tailgatePressed (wake .tailgateButton s) else s
    else s
  | .pad p => padExpiry p s
  | .windowSwitch w =>
    let q := (switchAt x w).pos
    if due false q then switchQualified w (clockTo (q.since + Times.switchTime) s) else s
  | .crashLine => crashExpiry s

/-! ### Supply and vehicle state (03, R52 to R57) -/

/-- The supply hold after a measurement (03, R57). -/
def holdAfter (hold : Bool) (mv : Nat) : Bool :=
  if hold then !decide (9500 ≤ mv ∧ mv ≤ 16000) else decide (mv < 9000 ∨ 16500 < mv)

/-- A supply measurement; a supply beyond 65,535 mV is measured as 65,535 (03, R57). -/
def supplyMeasured (millivolts : Nat) (s : State) : State :=
  let mv := min 65535 millivolts
  { s with vehicle := { s.vehicle with supply := mv, supplyHold := holdAfter s.vehicle.supplyHold mv } }

/-- A change of power mode: the retained-power period starts from RUN to OFF with its setting above 0 and ends when
the mode leaves OFF, which also stops the relock timer; the gate follows (03, R54 to R56; 07, R129). -/
def changePower (new : PowerMode) (s : State) : State :=
  let old := s.vehicle.powerMode
  if new = old then s
  else
    let retained :=
      if old = .run ∧ new = .off ∧ 0 < s.link.settings.retainedPower then
        some (s.now + ms (s.link.settings.retainedPower * 1000))
      else none
    let s := { s with vehicle := { s.vehicle with powerMode := new, retained } }
    closeGate (if old = .off then stopRelock s else s)

/-- A VEHICLE_STATE taken (03, R52): the speed and its age, the power mode, the report to the Chain Engine. -/
def takeVehicleState (speed : Nat) (mode : PowerMode) (s : State) : State :=
  let s := { s with vehicle := { s.vehicle with speed := min 255 speed, taken := some s.now, discard := false } }
  let s := changePower mode s
  testSpeedLock (if speedZero s then armSpeedLock s else s)

/-- VEHICLE_STATE (03, R52). -/
def reqVehicleState (speed : BitVec 16) (powerMode : Byte) (s : State) : State :=
  ready (needs (powerModeOf powerMode) fun p s => reply .ok [] (finishEvent (takeVehicleState speed.toNat p s))) s

/-- The retained-power period expires (03, R55). -/
def retainedExpiry (s : State) : State :=
  match s.vehicle.retained with
  | none => s
  | some t => finishEvent (endRetained (clockTo t s))

/-- More than 1000 ms have passed since the last VEHICLE_STATE: speed is unknown, its value kept (03, R53; log entry
22). The Chain Engine's test of SPEED_LOCK is not made at this report (07, R128). -/
def speedStale (s : State) : State :=
  match s.vehicle.taken with
  | none => s
  | some t => clockTo (t + Times.vehicleStateAge + 1) s

/-! ### Meanings -/

/-- The meaning of RAW_INPUT_CHANGE. -/
def execRawInputChange (c : RawChange) (s : State) : Host.Outcome State Fault Refusal := .next (rawChange c s)

/-- The meaning of QUALIFICATION_TIME_EXPIRY. -/
def execQualificationTimeExpiry (i : Input) (s : State) : Host.Outcome State Fault Refusal :=
  event (fun s => finishEvent (qualify i s)) s

/-- The meaning of DEFERRED_REQUEST_TAKE. -/
def execDeferredRequestTake (s : State) : Host.Outcome State Fault Refusal := event deferredTake s

/-- The meaning of SUPPLY_MEASUREMENT. -/
def execSupplyMeasurement (millivolts : Nat) (s : State) : Host.Outcome State Fault Refusal :=
  event (supplyMeasured millivolts) s

/-- The meaning of VEHICLE_STATE. -/
def execVehicleState (speed : BitVec 16) (powerMode : Byte) (s : State) : Host.Outcome State Fault Refusal :=
  hostRequest 3 (reqVehicleState speed powerMode) s

/-- The meaning of RETAINED_POWER_EXPIRY. -/
def execRetainedPowerExpiry (s : State) : Host.Outcome State Fault Refusal := event retainedExpiry s

/-- The meaning of SPEED_STALE. -/
def execSpeedStale (s : State) : Host.Outcome State Fault Refusal := event speedStale s

end Sys2Proof.Machine
end

