-- ==== Sys2Proof/Machine/LatchEvents.lean ====
section
/-! DEFINITION. The aperture record read by the host, the host's latch requests, and the Latch Units' own events: the
meanings of their rows (03, R43; 04). -/

namespace Sys2Proof.Machine

open Sys2Proof

/-- The reply to a latch request, by how it stood when taken (04, R83). -/
def replyLatch (x : Answer) (s : State) : State :=
  match x with
  | .denied r => reply (.refused r) [] s
  | .done => replyResult .done [] s
  | .driving => replyResult .driving [] s
  | .held => replyResult .held [] s

/-- The switch that a host request acts on has not first qualified (04, R83). -/
def hostUnqualified (s : State) (a : Aperture) (target : HeldTarget) : Bool :=
  match actuatorOf target with
  | .latch => !pairQualified s a
  | .release => !pairQualified s a
  | .child => (apertureRear a).any fun r => !childQualified s r

/-- A latch request taken with requester LINK, its reply, and what it sets moving (04, R83). -/
def takeHostLatch (target : HeldTarget) (a : Aperture) (s : State) : State :=
  if hostUnqualified s a target then reply .notReady [] s
  else
    let (s, x) := requestLatch a target .link [] s
    replyLatch x (finishEvent s)

/-- APERTURE_COMMAND with a latch, child-lock or release action (04, R83). -/
def reqLatch (target : HeldTarget) (aperture : Byte) (s : State) : State :=
  ready (needs (apertureOf aperture) (takeHostLatch target)) s

/-- The apertures an APERTURE_READ names: one, or all five for code 5 (03, R43; 12, R184). -/
def aperturesOf (b : Byte) : Option (List Aperture) :=
  if b = 5 then some allApertures else (apertureOf b).map fun a => [a]

/-- APERTURE_READ (03, R43). -/
def reqApertureRead (aperture : Byte) (s : State) : State :=
  ready (needs (aperturesOf aperture) fun l s => reply .ok (l.flatMap (snapshot s)) s) s

/-- The release pulse ends: its requester receives DONE and the interval runs (04, R71). -/
def pulseEnd (s : State) : State :=
  match s.latches.pulse with
  | none => s
  | some p =>
    let s := clockTo p.ending s
    tell p.requester p.tags .tg (fun _ => .done)
      { s with latches := { s.latches with pulse := none, interval := some (s.now + Times.intervalTime) } }

/-- The interval after a pulse ends (04, R71). -/
def intervalEnd (s : State) : State :=
  match s.latches.interval with
  | none => s
  | some t => let s := clockTo t s; { s with latches := { s.latches with interval := none } }

/-! ### Meanings -/

/-- The meaning of APERTURE_READ. -/
def execApertureRead (aperture : Byte) (s : State) : Host.Outcome State Fault Refusal :=
  hostRequest 1 (reqApertureRead aperture) s

/-- The meaning of APERTURE_COMMAND_LOCK. -/
def execApertureCommandLock (aperture : Byte) (s : State) : Host.Outcome State Fault Refusal :=
  hostRequest 3 (reqLatch .locked aperture) s

/-- The meaning of APERTURE_COMMAND_UNLOCK. -/
def execApertureCommandUnlock (aperture : Byte) (s : State) : Host.Outcome State Fault Refusal :=
  hostRequest 3 (reqLatch .unlocked aperture) s

/-- The meaning of APERTURE_COMMAND_DEADLOCK. -/
def execApertureCommandDeadlock (aperture : Byte) (s : State) : Host.Outcome State Fault Refusal :=
  hostRequest 3 (reqLatch .deadlocked aperture) s

/-- The meaning of APERTURE_COMMAND_CHILD_ON. -/
def execApertureCommandChildOn (aperture : Byte) (s : State) : Host.Outcome State Fault Refusal :=
  hostRequest 3 (reqLatch .on aperture) s

/-- The meaning of APERTURE_COMMAND_CHILD_OFF. -/
def execApertureCommandChildOff (aperture : Byte) (s : State) : Host.Outcome State Fault Refusal :=
  hostRequest 3 (reqLatch .off aperture) s

/-- The meaning of APERTURE_COMMAND_TAILGATE_RELEASE. -/
def execApertureCommandTailgateRelease (aperture : Byte) (s : State) : Host.Outcome State Fault Refusal :=
  hostRequest 3 (reqLatch .release aperture) s

/-- The meaning of LATCH_HELD_START. -/
def execLatchHeldStart (a : Aperture) (s : State) : Host.Outcome State Fault Refusal :=
  event (fun s => finishEvent (heldStart a s)) s

/-- The meaning of LATCH_DRIVE_LIMIT. -/
def execLatchDriveLimit (a : Aperture) (s : State) : Host.Outcome State Fault Refusal :=
  event (fun s => finishEvent (driveLimit a s)) s

/-- The meaning of RELEASE_PULSE_END. -/
def execReleasePulseEnd (s : State) : Host.Outcome State Fault Refusal := event (fun s => finishEvent (pulseEnd s)) s

/-- The meaning of RELEASE_INTERVAL_END. -/
def execReleaseIntervalEnd (s : State) : Host.Outcome State Fault Refusal := event intervalEnd s

end Sys2Proof.Machine
end

