-- ==== Sys2Proof/Machine/Chains.lean ====
section
/-! DEFINITION. The chain requests, CLEAR_CRASH and SETTINGS_WRITE, and the Chain Engine's own events: the meanings of
their rows (04, R82; 07; 08; 11, R177). -/

namespace Sys2Proof.Machine

open Sys2Proof

/-! ### Steps (07, R122) -/

/-- A step's working copy. -/
def stepAt (s : State) (i : Fin 64) : StepCell := look s.engine.steps i

/-- A step's working copy replaced. -/
def setStep (i : Fin 64) (c : StepCell) (s : State) : State :=
  { s with engine := { s.engine with steps := put s.engine.steps i c } }

/-- STEP_READ (07, R122). -/
def reqStepRead (index : Byte) (s : State) : State :=
  ready (needs (stepIndexOf index) fun i s => reply .ok (stepPayload i (stepAt s i)) s) s

/-- A mask of at most `n` members read; a bit with no member is unknown (12, R184). -/
def maskOf {w : Nat} (n : Nat) (x : BitVec w) : Option (BitVec n) :=
  if x.toNat < 2 ^ n then some (BitVec.ofNat n x.toNat) else none

/-- A step's argument read: WINDOW_TO takes 0..100, PAUSE 1..250; for the other actions it is ignored and stored as
absent (07, R122). -/
def argumentOf (a : Action) (b : Byte) : Option (Option Nat) :=
  match a with
  | .windowTo => if b.toNat ≤ 100 then some (some b.toNat) else none
  | .pause => if 1 ≤ b.toNat ∧ b.toNat ≤ 250 then some (some b.toNat) else none
  | _ => some none

/-- The aperture set as stored: empty for PAUSE, CHECK_INSIDE and EMPTY (07, R122). -/
def setOf (a : Action) (x : BitVec 6) : BitVec 6 :=
  match a with
  | .pause => 0
  | .checkInside => 0
  | .empty => 0
  | _ => x

/-- A step written: working copy at once, then its write; the reply waits for the write (07, R122). -/
def takeStepWrite (i : Fin 64) (st : Step) (s : State) : State :=
  offer (.step i) (.step st) [.replyOk] (setStep i (.step st) s)

/-- STEP_WRITE (07, R122). -/
def reqStepWrite (index action apertureSet argument minRole flags next : Byte) (s : State) : State :=
  ready (needs (stepIndexOf index) fun i => needs (actionOf action) fun a => needs (maskOf 6 apertureSet) fun x =>
    needs (argumentOf a argument) fun g => needs (roleOf minRole) fun r => needs (maskOf 5 flags) fun f =>
      needs (stepIndexOf next) fun n =>
        takeStepWrite i
          { action := a, apertures := setOf a x, argument := g, minRole := r, flags := f, next := n }) s

/-! ### Triggers (07, R124, R125) -/

/-- A trigger's static part replaced. -/
def setTrigger (t : Trigger) (x : TriggerStatic) (s : State) : State :=
  { s with engine := { s.engine with triggers := put s.engine.triggers (triggerIndex t) x } }

/-- A trigger index byte read: 0..13 (07, R124). -/
def triggerOfByte (b : Byte) : Option Trigger := triggerOf b.toNat

/-- TRIGGER_READ (07, R124). -/
def reqTriggerRead (index : Byte) (s : State) : State :=
  ready (needs (triggerOfByte index) fun t s =>
    reply .ok (triggerPayload (triggerAt s t) (continueAt s t) (refireAt s t).isSome (runAt s t).isSome s.now) s) s

/-- A start step byte read: 0xFF is absent, 64..254 is refused (07, R124). -/
def startOf (b : Byte) : Option (Option (Fin 64)) :=
  if b = 0xFF then some none else (stepIndexOf b).map some

/-- The static part as kept: priority clamped to 1..2, CRASH's kept at 3, a CRASH member dropped (07, R124). -/
def keptTrigger (t : Trigger) (start : Option (Fin 64)) (priority : Nat) (staging : Staging) (holdToRun : Bool)
    (cancels : BitVec 14) : TriggerStatic :=
  { start, priority := if t = .crash then 3 else clampTo 1 2 priority, staging, holdToRun,
    cancelSet := cancels &&& ~~~1#14 }

/-- A trigger written: working copy at once, its continue point cleared, then its write; the reply waits for the
write (07, R124). -/
def takeTriggerWrite (t : Trigger) (x : TriggerStatic) (s : State) : State :=
  offer (.trigger t) (.trigger x) [.replyOk] (setContinue t none (setTrigger t x s))

/-- TRIGGER_WRITE (07, R124). -/
def reqTriggerWrite (index start priority staging holdToRun : Byte) (cancelSet : BitVec 16) (s : State) : State :=
  ready (needs (triggerOfByte index) fun t => needs (startOf start) fun st => needs (stagingOf staging) fun g =>
    needs (boolOf holdToRun) fun h => needs (maskOf 14 cancelSet) fun c =>
      takeTriggerWrite t (keptTrigger t st priority.toNat g h c)) s

/-- The records CHAINS_DEFAULT persists, by their place 0..77: steps 0 to 63, then triggers 0 to 13 (07, R125). -/
def defaultRecord (n : Nat) : Option (RecordId × Content) :=
  if h : n < 64 then some (.step ⟨n, h⟩, .step (defaultStep ⟨n, h⟩))
  else (triggerOf (n - 64)).map fun t => (.trigger t, .trigger (defaultTrigger t))

/-- The write of one of the 78 records is queued, or, past the last, OK is given (07, R125). -/
def persistDefault (n : Nat) (s : State) : State :=
  match defaultRecord n with
  | some (id, c) =>
    offer id c [.chainsDefault] { s with engine := { s.engine with defaulting := some n } }
  | none => reply .ok [] { s with engine := { s.engine with defaulting := none } }

/-- The default content taken by every step and trigger, every continue point cleared (07, R125). -/
def loadDefaults (s : State) : State :=
  { s with engine := { s.engine with
      steps := Vector.ofFn fun i => .step (defaultStep i)
      triggers := Vector.ofFn fun i => defaultTrigger (allTriggers.getD i.val .crash)
      continuePoints := Vector.replicate 14 none } }

/-- CHAINS_DEFAULT (07, R125). -/
def reqChainsDefault (s : State) : State := ready (fun s => persistDefault 0 (loadDefaults s)) s

/-! ### Runs (07, R130, R134; 08, R152) -/

/-- An origin byte read: an aperture, or 0xFF for the driver aperture (07, R130). -/
def originOf (s : State) (b : Byte) : Option Aperture :=
  if b = 0xFF then some (driverAperture s) else apertureOf b

/-- A LINK_FIRE firing, refused BUSY while a LINK_FIRE run exists (07, R130). -/
def takeTriggerFire (start : Fin 64) (priority : Nat) (origin : Aperture) (s : State) : State :=
  if (runAt s .linkFire).isSome then reply .busy [] s
  else
    let f : Firing := { systemFiring .linkFire origin with request := some (start, clampTo 1 2 priority) }
    reply .ok [byte (triggerIndex .linkFire).val] (finishEvent (fire f s).1)

/-- TRIGGER_FIRE (07, R130). -/
def reqTriggerFire (start priority origin : Byte) (s : State) : State :=
  ready (needs (stepIndexOf start) fun i s =>
    needs (originOf s origin) (takeTriggerFire i priority.toNat) s) s

/-- RUN_STATUS (07, R134). -/
def reqRunStatus (s : State) : State := ready (fun s => reply .ok (runPayload s) s) s

/-- One aperture of a retried run: a FAULT outcome is lost and the aperture remains again (08, R152). -/
def retryAperture (r : Run) (a : Aperture) : Run :=
  match r.outcomes.get a with
  | some (.fault _) => { r with remaining := r.remaining.set a true, outcomes := r.outcomes.set a none }
  | _ => r

/-- A faulted run made READY again; a hold-to-run trigger's run gets a fresh hold timer (08, R152). -/
def retryRun (t : Trigger) (r : Run) (s : State) : State :=
  let r := allApertures.foldl retryAperture r
  let hold := if (triggerAt s t).holdToRun then some (s.now + Times.holdTime) else none
  preempt t (setRun t (some { r with fault := none, state := .ready, hold }) s)

/-- A RUN_RESOLVE at its run: NOT_FOUND, REFUSED(NOT_FAULTED), or the action and OK (08, R152). -/
def resolve (t : Trigger) (act : Run → State → State) (s : State) : State :=
  match runAt s t with
  | none => reply .notFound [] s
  | some r => if r.state = .faulted then reply .ok [] (finishEvent (act r s)) else reply (.refused .notFaulted) [] s

/-- RUN_RESOLVE with RETRY (08, R152). -/
def reqRunRetry (trigger : Byte) (s : State) : State :=
  ready (needs (triggerOfByte trigger) fun t => resolve t (retryRun t)) s

/-- RUN_RESOLVE with ABANDON (08, R152). -/
def reqRunAbandon (trigger : Byte) (s : State) : State :=
  ready (needs (triggerOfByte trigger) fun t => resolve t fun _ => retire t .abandoned) s

/-! ### CLEAR_CRASH and SETTINGS_WRITE -/

/-- CLEAR_CRASH taken: with speed known 0 the hold becomes CLEAR and its write is queued (04, R82). -/
def takeClearCrash (s : State) : State :=
  if speedZero s = false then reply (.refused .speed) [] s
  else if s.latches.crashHold = false then reply .ok [] s
  else offer .crash (.crash false) [.replyOk] { s with latches := { s.latches with crashHold := false } }

/-- CLEAR_CRASH (04, R82). -/
def reqClearCrash (s : State) : State := ready takeClearCrash s

/-- New settings that differ from the working copy: a changed driver side releases the front passenger switch, a
changed auto-lock or threshold tests SPEED_LOCK, and the write is queued (03, R48; 07, R128; 11, R177), after the writes that
those effects queue in the same event (log entry 49). -/
def changeSettings (x : Settings) (s : State) : State :=
  let old := s.link.settings
  let s := if x.driverFr = old.driverFr then s else releaseSwitch s .passenger
  let s := { s with link := { s.link with settings := x } }
  let s := if x.autoLock = old.autoLock ∧ x.speedThreshold = old.speedThreshold then s else testSpeedLock s
  offer .settings (.settings x) [.replyOk] (finishEvent s)

/-- The seven settings as taken, each number clamped to its range (11, R177). -/
def clampSettings (driverFr autoLock : Bool) (speedThreshold stagedWindow relockDelay retainedPower silenceExp : Nat) :
    Settings :=
  { driverFr, autoLock, speedThreshold := clampTo 5 40 speedThreshold, stagedWindow := clampTo 1 10 stagedWindow,
    relockDelay := clampTo 15 120 relockDelay, retainedPower := clampTo 0 120 retainedPower,
    silenceExp := clampTo 0 7 silenceExp }

/-- Settings taken: OK at once when nothing changes (11, R177). -/
def takeSettings (x : Settings) (s : State) : State :=
  if x = s.link.settings then reply .ok [] s else changeSettings x s

/-- SETTINGS_WRITE (11, R177). -/
def reqSettingsWrite (driverSide autoLock speedThreshold stagedWindow relockDelay retainedPower silenceExp : Byte)
    (s : State) : State :=
  ready (needs (boolOf driverSide) fun d => needs (boolOf autoLock) fun a =>
    takeSettings (clampSettings d a speedThreshold.toNat stagedWindow.toNat relockDelay.toNat retainedPower.toNat
      silenceExp.toNat)) s

/-! ### The engine's own events -/

/-- The relock timer expires: it stops and AUTO_RELOCK fires (07, R129). -/
def relockExpiry (s : State) : State :=
  match s.engine.relock with
  | none => s
  | some t =>
    let s := stopRelock (clockTo t s)
    finishEvent (fire (systemFiring .autoRelock (driverAperture s)) s).1

/-- A continue point expires and is cleared (07, R142). -/
def continueExpiry (t : Trigger) (s : State) : State :=
  match continueAt s t with
  | none => s
  | some c => setContinue t none (clockTo c.expiry s)

/-- A hold timer expires and its run is retired RELEASED (08, R153). -/
def holdExpiry (t : Trigger) (s : State) : State :=
  match runAt s t with
  | none => s
  | some r =>
    match r.hold with
    | none => s
    | some e => finishEvent (retire t .released (clockTo e s))

/-- The ACTIVE run's PAUSE has run out: pause remaining becomes absent, the step completes (07, R138). -/
def pauseEnd (s : State) : State :=
  match activeTrigger s with
  | none => s
  | some t =>
    match runAt s t with
    | none => s
    | some r =>
      match r.pause with
      | some { left, since := some since } =>
        finishEvent (setRun t (some { r with pause := none }) (clockTo (since + left) s))
      | _ => s

/-- The better of two waiting runs: the higher priority, the earlier index on equal terms (08, R145). -/
def betterRun (s : State) (best : Option (Trigger × Nat)) (t : Trigger) : Option (Trigger × Nat) :=
  match runAt s t with
  | none => best
  | some r =>
    if waits r then
      match best with
      | none => some (t, r.priority)
      | some b => if b.2 < r.priority then some (t, r.priority) else some b
    else best

/-- The run the engine would choose among the READY and SUSPENDED runs (08, R145). -/
def chosenRun (s : State) : Option Trigger := (allTriggers.foldl (betterRun s) none).map Prod.fst

/-- With no ACTIVE run, the chosen run becomes ACTIVE and begins or resumes its step (08, R145, R149). -/
def engineChoice (s : State) : State :=
  if (activeTrigger s).isSome then s
  else
    match chosenRun s with
    | none => s
    | some t => finishEvent (activate t s)

/-! ### Meanings -/

/-- The meaning of STEP_READ. -/
def execStepRead (index : Byte) (s : State) : Host.Outcome State Fault Refusal := hostRequest 1 (reqStepRead index) s

/-- The meaning of STEP_WRITE. -/
def execStepWrite (index action apertureSet argument minRole flags next : Byte) (s : State) :
    Host.Outcome State Fault Refusal :=
  hostRequest 7 (reqStepWrite index action apertureSet argument minRole flags next) s

/-- The meaning of TRIGGER_READ. -/
def execTriggerRead (index : Byte) (s : State) : Host.Outcome State Fault Refusal :=
  hostRequest 1 (reqTriggerRead index) s

/-- The meaning of TRIGGER_WRITE. -/
def execTriggerWrite (index start priority staging holdToRun : Byte) (cancelSet : BitVec 16) (s : State) :
    Host.Outcome State Fault Refusal :=
  hostRequest 7 (reqTriggerWrite index start priority staging holdToRun cancelSet) s

/-- The meaning of CHAINS_DEFAULT. -/
def execChainsDefault (s : State) : Host.Outcome State Fault Refusal := hostRequest 0 reqChainsDefault s

/-- The meaning of TRIGGER_FIRE. -/
def execTriggerFire (start priority origin : Byte) (s : State) : Host.Outcome State Fault Refusal :=
  hostRequest 3 (reqTriggerFire start priority origin) s

/-- The meaning of RUN_STATUS. -/
def execRunStatus (s : State) : Host.Outcome State Fault Refusal := hostRequest 0 reqRunStatus s

/-- The meaning of RUN_RESOLVE_RETRY. -/
def execRunResolveRetry (trigger : Byte) (s : State) : Host.Outcome State Fault Refusal :=
  hostRequest 2 (reqRunRetry trigger) s

/-- The meaning of RUN_RESOLVE_ABANDON. -/
def execRunResolveAbandon (trigger : Byte) (s : State) : Host.Outcome State Fault Refusal :=
  hostRequest 2 (reqRunAbandon trigger) s

/-- The meaning of CLEAR_CRASH. -/
def execClearCrash (s : State) : Host.Outcome State Fault Refusal := hostRequest 0 reqClearCrash s

/-- The meaning of SETTINGS_WRITE. -/
def execSettingsWrite (driverSide autoLock speedThreshold stagedWindow relockDelay retainedPower silenceExp : Byte)
    (s : State) : Host.Outcome State Fault Refusal :=
  hostRequest 7
    (reqSettingsWrite driverSide autoLock speedThreshold stagedWindow relockDelay retainedPower silenceExp) s

/-- The meaning of RELOCK_TIMER_EXPIRY. -/
def execRelockTimerExpiry (s : State) : Host.Outcome State Fault Refusal := event relockExpiry s

/-- The meaning of CONTINUE_POINT_EXPIRY. -/
def execContinuePointExpiry (t : Trigger) (s : State) : Host.Outcome State Fault Refusal := event (continueExpiry t) s

/-- The meaning of HOLD_TIMER_EXPIRY. -/
def execHoldTimerExpiry (t : Trigger) (s : State) : Host.Outcome State Fault Refusal := event (holdExpiry t) s

/-- The meaning of PAUSE_END. -/
def execPauseEnd (s : State) : Host.Outcome State Fault Refusal := event pauseEnd s

/-- The meaning of ENGINE_CHOICE. -/
def execEngineChoice (s : State) : Host.Outcome State Fault Refusal := event engineChoice s

end Sys2Proof.Machine
end

