-- ==== Sys2Proof/Machine/Store.lean ====
section
/-! DEFINITION. The Record Store (09): the start-up scan and what each owner loads, the writes, and what a completed
write tells its waiters; the meanings of its rows. -/

namespace Sys2Proof.Machine

open Sys2Proof

/-! ### Judging the stored copies (09, R158) -/

/-- An optional number as numbers: its presence, then its value. -/
def optNumbers : Option Nat → List Nat
  | none => [0]
  | some n => [1, n]

/-- A record's content as its numbers, in the order of its fields (01, R1; 05, R86; 07, R121, R123; 11, R177). -/
def contentNumbers : Content → List Nat
  | .key k =>
    [keyStateCode k.state] ++ optNumbers (k.identity.map BitVec.toNat) ++ [k.secret.toNat, roleCode k.role,
      k.counter.toNat, unlockModeCode k.profile.unlockMode, boolCode k.profile.passiveEntry,
      boolCode k.profile.comfortWindows]
  | .step st =>
    [actionCode st.action, st.apertures.toNat] ++ optNumbers st.argument ++
      [roleCode st.minRole, st.flags.toNat, st.next.val]
  | .trigger t =>
    optNumbers (t.start.map Fin.val) ++ [t.priority, stagingCode t.staging, boolCode t.holdToRun, t.cancelSet.toNat]
  | .settings x =>
    [boolCode x.driverFr, boolCode x.autoLock, x.speedThreshold, x.stagedWindow, x.relockDelay, x.retainedPower,
      x.silenceExp]
  | .window w =>
    optNumbers w.travel ++ w.refs.toList.flatMap optNumbers ++
      [w.level, boolCode w.autoClose, w.position, boolCode w.valid]
  | .crash inForce => [boolCode inForce]

/-- The check of a content (09, R158; log entry 37). -/
def checkOf (c : Content) : BitVec 16 := Config.recordCheck (contentNumbers c)

/-- A number lies within a range. -/
def within (lo hi n : Nat) : Bool := lo ≤ n && n ≤ hi

/-- A key record's fields hold values of their ranges; the state DAMAGED and the role SYSTEM are never stored
(01, R1, R3; log entry 34). -/
def keyInRange (k : KeyStored) : Bool := k.state ≠ .damaged && k.role ≠ .system

/-- A step's fields hold values of their ranges (07, R121). -/
def stepInRange (st : Step) : Bool :=
  st.minRole ≠ .system &&
    match st.action, st.argument with
    | .windowTo, some n => n ≤ 100
    | .windowTo, none => false
    | .pause, some n => within 1 250 n && st.apertures = 0
    | .pause, none => false
    | .checkInside, g => g.isNone && st.apertures = 0
    | .empty, g => g.isNone && st.apertures = 0
    | _, g => g.isNone

/-- A static part's fields hold values of their ranges: priority 1..2, CRASH's 3, no CRASH in a cancel set
(07, R123). -/
def triggerInRange (t : Trigger) (x : TriggerStatic) : Bool :=
  (if t = .crash then x.priority = 3 else within 1 2 x.priority) && !x.cancelSet.getLsbD 0

/-- The settings lie within their ranges (11, R177). -/
def settingsInRange (x : Settings) : Bool :=
  within 5 40 x.speedThreshold && within 1 10 x.stagedWindow && within 15 120 x.relockDelay &&
    x.retainedPower ≤ 120 && x.silenceExp ≤ 7

/-- A window record's fields lie within their ranges; a position beyond the bound does not make it damaged
(05, R86; 09, R158). -/
def windowInRange (w : WindowRec) : Bool :=
  w.travel.all (within 200 4000) && w.refs.toList.all (fun r => r.all (within 150 65535)) && w.level ≤ 15

/-- A stored copy judged at the scan (09, R158). -/
inductive Judged (α : Type) where
  | erased
  | damaged
  | sound (x : α)
deriving DecidableEq, Repr

/-- A stored copy is sound when its check is that of its content and every field lies within its range, and damaged when
it is neither erased nor sound (09, R158). -/
def judgeCopy {α : Type} (content : α → Content) (inRange : α → Bool) : Stored α → Judged α
  | .erased => .erased
  | .unreadable => .damaged
  | .record x check => if check = checkOf (content x) ∧ inRange x = true then .sound x else .damaged

/-- A key record judged. -/
def judgedKey (f : Flash) (i : Fin 8) : Judged KeyStored := judgeCopy .key keyInRange (look f.keys i)
/-- A step judged. -/
def judgedStep (f : Flash) (i : Fin 64) : Judged Step := judgeCopy .step stepInRange (look f.steps i)
/-- A trigger's static part judged. -/
def judgedTrigger (f : Flash) (t : Trigger) : Judged TriggerStatic :=
  judgeCopy .trigger (triggerInRange t) (look f.triggers (triggerIndex t))
/-- The settings judged. -/
def judgedSettings (f : Flash) : Judged Settings := judgeCopy .settings settingsInRange f.settings
/-- A window record judged. -/
def judgedWindow (f : Flash) (d : Door) : Judged WindowRec := judgeCopy .window windowInRange (f.windows.get d)
/-- The crash record judged. -/
def judgedCrash (f : Flash) : Judged Bool := judgeCopy .crash (fun _ => true) f.crash

/-- A judged copy is erased. -/
def isErased {α : Type} : Judged α → Bool
  | .erased => true
  | .damaged => false
  | .sound _ => false

/-- A judged copy is sound. -/
def isSound {α : Type} : Judged α → Bool
  | .erased => false
  | .damaged => false
  | .sound _ => true

/-- The steps by number. -/
def allSteps : List (Fin 64) := List.ofFn id

/-- The store is blank: all 92 records are erased (09, R163). -/
def isBlank (f : Flash) : Bool :=
  allSlots.all (fun i => isErased (judgedKey f i)) && allSteps.all (fun i => isErased (judgedStep f i)) &&
    allTriggers.all (fun t => isErased (judgedTrigger f t)) && isErased (judgedSettings f) &&
    allDoors.all (fun d => isErased (judgedWindow f d)) && isErased (judgedCrash f)

/-- What an owner receives: a sound copy, else the default content in a blank store, else the content a damaged
record gives (09, R163, R164). -/
def received {α : Type} (blank : Bool) (x : Judged α) (ifBlank ifDamaged : α) : α :=
  match x with
  | .sound v => v
  | .erased => if blank then ifBlank else ifDamaged
  | .damaged => ifDamaged

/-- A key record as its owner receives it. -/
def receivedKey (f : Flash) (i : Fin 8) : KeyStored :=
  received (isBlank f) (judgedKey f i) KeyStored.empty KeyStored.damaged

/-- A step as its owner receives it. -/
def receivedStep (f : Flash) (i : Fin 64) : StepCell :=
  match judgedStep f i with
  | .sound st => .step st
  | .erased => if isBlank f then .step (defaultStep i) else .damaged
  | .damaged => .damaged

/-- A trigger of an index of the table. -/
def triggerAtIndex (i : Fin 14) : Trigger := allTriggers.getD i.val .crash

/-- A trigger's static part as its owner receives it. -/
def receivedTrigger (f : Flash) (i : Fin 14) : TriggerStatic :=
  let t := triggerAtIndex i
  received (isBlank f) (judgedTrigger f t) (defaultTrigger t) { defaultTrigger t with start := none }

/-- The settings as their owner receives them. -/
def receivedSettings (f : Flash) : Settings := received (isBlank f) (judgedSettings f) Settings.default Settings.default

/-- A window record as its owner receives it. -/
def receivedWindow (f : Flash) (d : Door) : WindowRec :=
  received (isBlank f) (judgedWindow f d) WindowRec.blank WindowRec.blank

/-- The crash record as its owner receives it: CLEAR in a blank store, IN_FORCE when damaged. -/
def receivedCrash (f : Flash) : Bool := received (isBlank f) (judgedCrash f) false true

/-! ### The repair list and the damage counts (09, R163 to R165) -/

/-- The records of a kind that are not sound. -/
def unsound {α ι : Type} (l : List ι) (at_ : ι → Judged α) : List ι := l.filter fun i => !isSound (at_ i)

/-- The rewrites: in a blank store all 92, in the order of 09, R158's table (R163), otherwise the damaged triggers,
settings, windows and crash record, in the same order, which R164 leaves open (log entry 46). -/
def repairs (f : Flash) : List (RecordId × Content) :=
  let blank := isBlank f
  let keys := if blank then allSlots.map fun i => (RecordId.key i, Content.key KeyStored.empty) else []
  let steps := if blank then allSteps.map fun i => (RecordId.step i, Content.step (defaultStep i)) else []
  let triggers := (unsound allTriggers (judgedTrigger f)).map fun t =>
    (RecordId.trigger t, Content.trigger (receivedTrigger f (triggerIndex t)))
  let settings := if isSound (judgedSettings f) then [] else [(RecordId.settings, Content.settings Settings.default)]
  let windows := (unsound allDoors (judgedWindow f)).map fun d =>
    (RecordId.window d, Content.window WindowRec.blank)
  let crash := if isSound (judgedCrash f) then [] else [(RecordId.crash, Content.crash (receivedCrash f))]
  keys ++ steps ++ triggers ++ settings ++ windows ++ crash

/-- The damage counts of a scan; a blank store gives all zero (09, R165). -/
def damageCounts (f : Flash) : DamageCounts :=
  if isBlank f then ⟨0, 0, 0, 0, 0, 0⟩
  else
    { keys := (unsound allSlots (judgedKey f)).length, steps := (unsound allSteps (judgedStep f)).length,
      triggers := (unsound allTriggers (judgedTrigger f)).length,
      settings := if isSound (judgedSettings f) then 0 else 1,
      windows := (unsound allDoors (judgedWindow f)).length,
      crash := if isSound (judgedCrash f) then 0 else 1 }

/-- Some record was found damaged (09, R165). -/
def anyDamage (d : DamageCounts) : Bool := d ≠ ⟨0, 0, 0, 0, 0, 0⟩

/-! ### Loading (09, R162; 01, R4; 05, R87; 07, R121, R123; 04, R77; 11, R177; 10, R167) -/

/-- A window with its record loaded: the position is known if it is valid and within the bound (05, R87). -/
def loadWindow (r : WindowRec) (w : Window) : Window :=
  { w with record := r, known := r.valid && r.position ≤ bound r.travel }

/-- The Key Table Unit and the Chain Engine load their working copies. -/
def loadTables (s : State) : State :=
  let f := s.store.flash
  { s with
    keys := { s.keys with recs := Vector.ofFn fun i => KeyRecord.load (receivedKey f i) }
    engine := { s.engine with steps := Vector.ofFn (receivedStep f), triggers := Vector.ofFn (receivedTrigger f) } }

/-- The four Window Units load their window records. -/
def loadWindows (s : State) : State :=
  allDoors.foldl (fun s d => setWindow d (loadWindow (receivedWindow s.store.flash d) (windowAt s d)) s) s

/-- The settings are loaded; the silence timer that still runs from the reset takes their interval (10, R167; log
entry 28). -/
def loadSettings (s : State) : State :=
  let x := receivedSettings s.store.flash
  { s with
    link := { s.link with settings := x }
    sup := { s.sup with silence := s.sup.silence.map fun t =>
      if t.atReset then { t with interval := silenceInterval x } else t } }

/-- The crash hold's working value is decided: IN_FORCE if the stored copy says so or is damaged, or if a crash event
has been taken since the reset (04, R77). -/
def loadCrash (s : State) : State :=
  { s with latches := { s.latches with crashHold := receivedCrash s.store.flash || s.latches.crashPending } }

/-- The repair list and the damage counts are formed; a record whose entry is already queued needs no repair entry
(09, R162, R164, R165). -/
def formRepairs (s : State) : State :=
  let f := s.store.flash
  let repair := (repairs f).filter fun p => !s.store.queue.any fun e => e.id = p.1
  let s := { s with store := { s.store with repair, damage := damageCounts f, scanDone := true } }
  if anyDamage (damageCounts f) then raise .storeDamage s else s

/-- The CRASH firing kept pending through the scan is delivered (04, R81); the driver aperture is read now (log entry
42). -/
def deliverCrash (s : State) : State :=
  if s.latches.crashPending then
    (fire (systemFiring .crash (driverAperture s))
      { s with latches := { s.latches with crashPending := false } }).1
  else s

/-- The start-up scan completes, as one event (09, R162). -/
def scanComplete (s : State) : State :=
  if s.store.scanDone then s
  else finishEvent (deliverCrash (formRepairs (loadCrash (loadSettings (loadWindows (loadTables s))))))

/-! ### Writes (09, R160) -/

/-- A write starts: the head of the queue, or of the repair list when the queue is empty (09, R160). -/
def writeStart (s : State) : State :=
  if s.store.scanDone && s.store.inFlight.isNone then
    match s.store.queue, s.store.repair with
    | e :: rest, _ => { s with store := { s.store with queue := rest, inFlight := some e } }
    | [], (id, content) :: rest =>
      { s with store := { s.store with repair := rest, inFlight := some { id, content, waiters := [] } } }
    | [], [] => s
  else s

/-- The stored copies with one record written, its content with a fresh check (09, R158); content of another kind than
the record never occurs. -/
def writeFlash (id : RecordId) (c : Content) (f : Flash) : Flash :=
  match id, c with
  | .key i, .key k => { f with keys := put f.keys i (.record k (checkOf c)) }
  | .step i, .step st => { f with steps := put f.steps i (.record st (checkOf c)) }
  | .trigger t, .trigger x => { f with triggers := put f.triggers (triggerIndex t) (.record x (checkOf c)) }
  | .settings, .settings x => { f with settings := .record x (checkOf c) }
  | .window d, .window r => { f with windows := f.windows.set d (.record r (checkOf c)) }
  | .crash, .crash b => { f with crash := .record b (checkOf c) }
  | _, _ => f

/-- The stored copies with one record damaged: what a torn write left of its bytes spells no content (09, R161). -/
def damageFlash (id : RecordId) (f : Flash) : Flash :=
  match id with
  | .key i => { f with keys := put f.keys i .unreadable }
  | .step i => { f with steps := put f.steps i .unreadable }
  | .trigger t => { f with triggers := put f.triggers (triggerIndex t) .unreadable }
  | .settings => { f with settings := .unreadable }
  | .window d => { f with windows := f.windows.set d .unreadable }
  | .crash => { f with crash := .unreadable }

/-- One waiter is told that its write has completed (09, R160's table; 01, R6, R7). A Window Unit's motor start is
tested by MOTOR_START. After a counter's write the key change that waited is queued at once, before the marker writes of
a run that the firing has made ACTIVE (log entry 51). -/
def tellWaiter (s : State) (w : WriteWaiter) : State :=
  match w with
  | .counterPersist i => beginWaiting i (counterStored i (clearMarker i s))
  | .linkChange i => matchResumed i (reply .ok [] (clearMarker i s))
  | .marker _ => s
  | .applied => replyResult .applied [] s
  | .replyOk => reply .ok [] s
  | .chainsDefault =>
    match s.engine.defaulting with
    | some n => persistDefault (n + 1) s
    | none => s

/-- The write in flight completes: the stored copy holds the content and every waiter is told in order (09, R160). -/
def writeComplete (s : State) : State :=
  match s.store.inFlight with
  | none => s
  | some e =>
    let s := { s with store := { s.store with flash := writeFlash e.id e.content s.store.flash, inFlight := none } }
    finishEvent (e.waiters.foldl tellWaiter s)

/-! ### Meanings -/

/-- The meaning of SCAN_COMPLETE. -/
def execScanComplete (s : State) : Host.Outcome State Fault Refusal := event scanComplete s

/-- The meaning of STORE_WRITE_START. -/
def execStoreWriteStart (s : State) : Host.Outcome State Fault Refusal := event writeStart s

/-- The meaning of STORE_WRITE_COMPLETE. -/
def execStoreWriteComplete (s : State) : Host.Outcome State Fault Refusal := event writeComplete s

end Sys2Proof.Machine
end

