-- ==== Sys2Proof/Machine/Supervision.lean ====
section
/-! DEFINITION. The Supervision Unit (10): resets, parking, the silence timer; and the meanings of its rows. -/

namespace Sys2Proof.Machine

open Sys2Proof

/-! ### Resets (10, R172, R173; 09, R161) -/

/-- The stored copies as a reset leaves them: the record in flight holds its old content, its new content, or is
damaged, a free value (09, R161; log entry 7). -/
def tornStore (s : State) : Flash :=
  match s.store.inFlight with
  | none => s.store.flash
  | some e =>
    match Config.tornWrite s.free with
    | 0 => s.store.flash
    | 1 => writeFlash e.id e.content s.store.flash
    | 2 => damageFlash e.id s.store.flash

/-- An input after a reset: its raw level stands and its timing begins anew (03, R44); `value` is the value after
reset of 03, R45. -/
def Qual.restart {α : Type} (now : Nat) (value : α) (q : Qual α) : Qual α :=
  { raw := q.raw, since := now, value, first := false }

/-- An input whose value after reset is the first value held. -/
def Qual.restartFirst {α : Type} (now : Nat) (q : Qual α) : Qual α := q.restart now q.raw

/-- A pad after a reset: AWAITING_RELEASE (03, R46). -/
def PadState.restart (now : Nat) (p : PadState) : PadState := { p with since := now, ready := false }

/-- A window switch after a reset: qualified and delivered NEUTRAL (03, R45, R48). -/
def WindowSwitch.restart (now : Nat) (w : WindowSwitch) : WindowSwitch :=
  { pos := w.pos.restart now .neutral, delivered := .neutral }

/-- A table with a function applied at each aperture. -/
def Five.map {α β : Type} (f : α → β) (t : Five α) : Five β := ⟨f t.fl, f t.fr, f t.rl, f t.rr, f t.tg⟩
/-- A table with a function applied at each side door. -/
def Four.map {α β : Type} (f : α → β) (t : Four α) : Four β := ⟨f t.fl, f t.fr, f t.rl, f t.rr⟩
/-- A table with a function applied at each rear door. -/
def Rears.map {α β : Type} (f : α → β) (t : Rears α) : Rears β := ⟨f t.rl, f t.rr⟩
/-- A table with a function applied at each front door. -/
def Fronts.map {α β : Type} (f : α → β) (t : Fronts α) : Fronts β := ⟨f t.fl, f t.fr⟩

/-- The Input Qualifier after a reset at a moment: the wires' levels stand, everything qualified is lost
(03, R44 to R48). -/
def Inputs.restart (now : Nat) (x : Inputs) : Inputs :=
  { pair := x.pair.map (Qual.restartFirst now), childSwitch := x.childSwitch.map (Qual.restartFirst now),
    ajar := x.ajar.map (Qual.restart now true), handle := x.handle.map (Qual.restartFirst now),
    rocker := x.rocker.map (Qual.restartFirst now), childButton := x.childButton.restartFirst now,
    tailgateButton := x.tailgateButton.restartFirst now, padUnlock := x.padUnlock.map (PadState.restart now),
    padLock := x.padLock.map (PadState.restart now), pack := x.pack.map (WindowSwitch.restart now),
    rearDoor := x.rearDoor.map (WindowSwitch.restart now), passenger := x.passenger.restart now,
    crashLine := { asserted := x.crashLine.asserted, since := now, ready := true } }

/-- The part re-timed at the moment it starts: qualification, rest and the silence timer count from now. -/
def startClocks (s : State) : State :=
  { s with
    inputs := s.inputs.restart s.now
    latches := { s.latches with unit := s.latches.unit.map fun u => { u with restFrom := s.now } }
    sup := { s.sup with silence := s.sup.silence.map fun t => { t with start := s.now } } }

/-- Any reset: every drive, pulse, motor and write stops, all volatile state takes its values after reset, the stored
copies stand as 09, R161 leaves them, the wires keep their levels, and the scan begins (10, R172, R173). The clock,
the free-value index, the commands that wait and the host's data out are the model's own and go on. -/
def afterReset (power : Power) (cause : ResetCause) (s : State) : State :=
  startClocks
    { State.reset with
      now := s.now, power, inputs := s.inputs, store := Store.reset (tornStore s),
      free := if s.store.inFlight.isSome then s.free + 1 else s.free,
      link := { Link.reset with dataOut := s.link.dataOut },
      sup := { Supervision.reset with resetCause := cause }, pending := s.pending }

/-- A power-on reset: POWER_ON alone (10, R173). -/
def powerOn (s : State) : State := afterReset .running { powerOn := true, lowVoltage := false, link := false } s

/-- A link reset: LINK set, the others kept (10, R173). -/
def linkReset (s : State) : State := afterReset .running { s.sup.resetCause with link := true } s

/-- The supply has stayed below 5.5 V for 1 ms; `lowest` is its lowest value in the dip so far. The part is held until
the supply rises again; below 2,500 mV it loses its retained state (10, R172, R173; log entry 27). -/
def lowVoltage (lowest : Nat) (s : State) : State :=
  if 5500 ≤ lowest then s
  else
    let power := if lowest < 2500 then Power.lost else Power.lowVoltage
    match s.power with
    | .running => afterReset power { s.sup.resetCause with lowVoltage := true } s
    | .lowVoltage => { s with power }
    | .lost => s

/-- The supply rises above 6.0 V again after a low-voltage reset that kept the retained state: the part restarts
(10, R172). -/
def partRestart (s : State) : State :=
  match s.power with
  | .lowVoltage => startClocks { s with power := .running }
  | .running => s
  | .lost => s

/-! ### Requests (10, R169 to R173) -/

/-- DEVICE_STATUS_CLEAR (10, R173). -/
def reqDeviceStatusClear (s : State) : State :=
  ready (fun s => reply .ok []
    { s with sup := { s.sup with resetCause := { powerOn := false, lowVoltage := false, link := false },
                                 wakeCauses := 0 } }) s

/-- RESET: OK at once, a link reset is pending (10, R172). -/
def reqReset (s : State) : State :=
  ready (fun s => reply .ok [] { s with sup := { s.sup with pendingReset := true } }) s

/-- A run does not keep the part from parking: it does not exist or is FAULTED (10, R169). -/
def runAtRest (s : State) (t : Trigger) : Bool :=
  match runAt s t with
  | none => true
  | some r => r.state = .faulted

/-- The part is at rest: none of the eight conditions of 10, R169 holds. -/
def atRest (s : State) : Bool :=
  allTriggers.all (runAtRest s) && allApertures.all (fun a => channelPhase (latchAt s a) = .idle) &&
    s.latches.pulse.isNone && allDoors.all (fun d => (windowAt s d).phase = .idle) &&
    s.entry.queue.isEmpty && s.entry.search.isNone &&
    s.store.queue.isEmpty && s.store.inFlight.isNone && s.store.repair.isEmpty &&
    s.entry.rfQueue.isEmpty && s.entry.processing.isNone && s.engine.relock.isNone

/-- PARK accepted (10, R170; 01, R16; 03, R53, R55, R56; 07, R142). -/
def enterParked (s : State) : State :=
  closeGate
    { s with
      sup := { s.sup with mode := .parked, silence := none }
      engine := { s.engine with continuePoints := Vector.replicate 14 none }
      keys := { s.keys with window := none }
      vehicle := { s.vehicle with discard := true, retained := none } }

/-- PARK (10, R169, R170). -/
def reqPark (s : State) : State :=
  ready (fun s => if atRest s then reply .ok [] (enterParked s) else reply (.refused .activity) [] s) s

/-- The silence timer expires in ACTIVE: AUTONOMOUS, SILENCE raised, the timer stopped (10, R167). -/
def silenceExpiry (s : State) : State :=
  match s.sup.silence with
  | none => s
  | some t =>
    if s.sup.mode = .active then
      let s := clockTo (t.start + t.interval) s
      raise .silence { s with sup := { s.sup with mode := .autonomous, silence := none } }
    else s

/-! ### Meanings -/

/-- The meaning of DEVICE_STATUS_CLEAR. -/
def execDeviceStatusClear (s : State) : Host.Outcome State Fault Refusal := hostRequest 0 reqDeviceStatusClear s

/-- The meaning of RESET. -/
def execReset (s : State) : Host.Outcome State Fault Refusal := hostRequest 0 reqReset s

/-- The meaning of PARK. -/
def execPark (s : State) : Host.Outcome State Fault Refusal := hostRequest 0 reqPark s

/-- The meaning of POWER_ON_RESET. -/
def execPowerOnReset (s : State) : Host.Outcome State Fault Refusal := .next (powerOn s)

/-- The meaning of LOW_VOLTAGE_RESET. -/
def execLowVoltageReset (lowest : Nat) (s : State) : Host.Outcome State Fault Refusal := .next (lowVoltage lowest s)

/-- The meaning of PART_RESTART. -/
def execPartRestart (s : State) : Host.Outcome State Fault Refusal := .next (partRestart s)

/-- The meaning of SILENCE_TIMER_EXPIRY. -/
def execSilenceTimerExpiry (s : State) : Host.Outcome State Fault Refusal := event silenceExpiry s

end Sys2Proof.Machine
end

