-- ==== Sys2Proof/Machine/WindowEvents.lean ====
section
/-! DEFINITION. The host's window requests and the Window Units' own events: the meanings of their rows (05, 06). -/

namespace Sys2Proof.Machine

open Sys2Proof

/-- The reply to a window request, by how it stood when taken (05, R95). -/
def replyWindow (x : WindowAnswer) (s : State) : State :=
  match x with
  | .denied r => reply (.refused r) [] s
  | .done => replyResult .done [] s
  | .moving => replyResult .moving [] s

/-- A window action named to an aperture; TG has no window (05, R95). -/
def onWindow (a : Aperture) (f : Door → State → State) (s : State) : State :=
  match apertureDoor a with
  | none => reply (.refused .notFitted) [] s
  | some d => f d s

/-- A movement asked for by the host, its reply, and what it sets moving (05, R95). -/
def takeHostMove (d : Door) (m : Movement) (s : State) : State :=
  let (s, x) := requestMovement d m s
  replyWindow x (finishEvent s)

/-- APERTURE_COMMAND with WINDOW_OPEN or WINDOW_CLOSE (05, R95). -/
def reqWindowMove (dir : Direction) (aperture : Byte) (s : State) : State :=
  ready (needs (apertureOf aperture) fun a =>
    onWindow a fun d => takeHostMove d (plainMove dir .toEnd .link [])) s

/-- A WINDOW_TO at a window: the target step is floor(percent × Lt / 100); with Lt absent the window is not
NORMALIZED and the request is refused UNNORMALIZED, after the reversal test (05, R89, R90, R96; log entry 35). -/
def takeWindowTo (percent : Nat) (d : Door) (s : State) : State :=
  let w := windowAt s d
  match w.record.travel with
  | some l => takeHostMove d (positionMove w (percentTarget percent l) .link []) s
  | none => replyWindow (.denied (if reversing w then .reversal else .unnormalized)) s

/-- A percentage of the travel read: 0..100 (05, R95; 11, R176). -/
def percentOf (b : Byte) : Option Nat := if b.toNat ≤ 100 then some b.toNat else none

/-- APERTURE_COMMAND with WINDOW_TO (05, R95). -/
def reqWindowTo (aperture percent : Byte) (s : State) : State :=
  ready (needs (apertureOf aperture) fun a => needs (percentOf percent) fun p => onWindow a (takeWindowTo p)) s

/-- A WINDOW_STOP at a window: it stops the movement in progress and removes any follow-on, chain requesters told
OVERRIDDEN; a reversal refuses it (05, R95, R96). -/
def takeWindowStop (d : Door) (s : State) : State :=
  let w := windowAt s d
  if reversing w then reply (.refused .reversal) [] s
  else if inProgress w || w.followOn.isSome then
    replyResult .stopped [] (finishEvent (removeFollowOn d (some .overridden) (stopMovement d (some .overridden) s)))
  else replyResult .idle [] s

/-- APERTURE_COMMAND with WINDOW_STOP (05, R95). -/
def reqWindowStop (aperture : Byte) (s : State) : State :=
  ready (needs (apertureOf aperture) fun a => onWindow a takeWindowStop) s

/-- A WINDOW_SETUP at a window by its phase (05, R103). -/
def takeWindowSetup (level : Nat) (auto : Bool) (d : Door) (s : State) : State :=
  let w := windowAt s d
  if w.phase = .idle then
    if w.record.level = level ∧ w.record.autoClose = auto then replyResult .applied [] s
    else
      writeWindow d [.applied] (setWindow d { w with record := { w.record with level, autoClose := auto } } s)
  else replyResult .deferred [] (setWindow d { w with pendingSetup := some (level, auto) } s)

/-- WINDOW_SETUP: a threshold level above 15 is taken as 15 (05, R103). -/
def reqWindowSetup (window level auto : Byte) (s : State) : State :=
  ready (needs (doorOf window) fun d => needs (boolOf auto) fun x => takeWindowSetup (min 15 level.toNat) x d) s

/-- A WINDOW_RELEARN at a window by its phase (05, R104). -/
def takeWindowRelearn (d : Door) (s : State) : State :=
  let w := windowAt s d
  if w.phase = .idle then
    writeWindow d [.applied]
      (setWindow d { w with record := { w.record with travel := none, refs := Vector.replicate 16 none } } s)
  else replyResult .deferred [] (setWindow d { w with pendingRelearn := true } s)

/-- WINDOW_RELEARN (05, R104). -/
def reqWindowRelearn (window : Byte) (s : State) : State := ready (needs (doorOf window) takeWindowRelearn) s

/-- 60 ms without an accepted edge after the first one: the stall is classified (05, R99). -/
def stallTimeout (d : Door) (s : State) : State :=
  let w := windowAt s d
  match w.phase, w.motion, w.lastEdge with
  | .running, some m, some t =>
    if m.pulses = 0 then s else classifyStall d m.move.dir (clockTo (t + Times.stallTime) s)
  | _, _, _ => s

/-- No accepted edge within 300 ms of the motor start (05, R102). -/
def noPulses (d : Door) (s : State) : State :=
  let w := windowAt s d
  match w.phase, w.motion with
  | .running, some m =>
    if m.pulses = 0 then windowFault d .noPulses (clockTo (m.started.getD s.now + Times.noPulsesTime) s) else s
  | _, _ => s

/-- The run time reaches 8,000 ms (05, R102). -/
def runLimit (d : Door) (s : State) : State :=
  let w := windowAt s d
  match w.phase, w.motion with
  | .running, some m => windowFault d .runLimit (clockTo (m.started.getD s.now + Times.runLimitTime) s)
  | _, _ => s

/-- The coast ends (05, R92). -/
def coastEnd (d : Door) (s : State) : State :=
  let w := windowAt s d
  if w.phase = .coasting then comeToRest d (clockTo w.coastEnd s) else s

/-- A movement that waits in MARKING starts once nothing holds its motor back (05, R91). -/
def motorStart (d : Door) (s : State) : State :=
  let w := windowAt s d
  match w.phase, w.motion with
  | .marking, some m => if startHeldBack s d then s else startMotor d m.move s
  | _, _ => s

/-! ### Meanings -/

/-- The meaning of APERTURE_COMMAND_WINDOW_OPEN. -/
def execApertureCommandWindowOpen (aperture : Byte) (s : State) : Host.Outcome State Fault Refusal :=
  hostRequest 3 (reqWindowMove .opening aperture) s

/-- The meaning of APERTURE_COMMAND_WINDOW_CLOSE. -/
def execApertureCommandWindowClose (aperture : Byte) (s : State) : Host.Outcome State Fault Refusal :=
  hostRequest 3 (reqWindowMove .closing aperture) s

/-- The meaning of APERTURE_COMMAND_WINDOW_TO. -/
def execApertureCommandWindowTo (aperture percent : Byte) (s : State) : Host.Outcome State Fault Refusal :=
  hostRequest 3 (reqWindowTo aperture percent) s

/-- The meaning of WINDOW_STOP. -/
def execWindowStop (aperture : Byte) (s : State) : Host.Outcome State Fault Refusal :=
  hostRequest 3 (reqWindowStop aperture) s

/-- The meaning of WINDOW_SETUP. -/
def execWindowSetup (window threshold autoClose : Byte) (s : State) : Host.Outcome State Fault Refusal :=
  hostRequest 3 (reqWindowSetup window threshold autoClose) s

/-- The meaning of WINDOW_RELEARN. -/
def execWindowRelearn (window : Byte) (s : State) : Host.Outcome State Fault Refusal :=
  hostRequest 1 (reqWindowRelearn window) s

/-- The meaning of HALL_EDGE. -/
def execHallEdge (d : Door) (gap : Nat) (s : State) : Host.Outcome State Fault Refusal :=
  event (fun s => finishEvent (hallEdge d gap s)) s

/-- The meaning of STALL_TIMEOUT. -/
def execStallTimeout (d : Door) (s : State) : Host.Outcome State Fault Refusal :=
  event (fun s => finishEvent (stallTimeout d s)) s

/-- The meaning of NO_PULSES. -/
def execNoPulses (d : Door) (s : State) : Host.Outcome State Fault Refusal :=
  event (fun s => finishEvent (noPulses d s)) s

/-- The meaning of RUN_LIMIT. -/
def execRunLimit (d : Door) (s : State) : Host.Outcome State Fault Refusal :=
  event (fun s => finishEvent (runLimit d s)) s

/-- The meaning of COAST_END. -/
def execCoastEnd (d : Door) (s : State) : Host.Outcome State Fault Refusal :=
  event (fun s => finishEvent (coastEnd d s)) s

/-- The meaning of MOTOR_START. -/
def execMotorStart (d : Door) (s : State) : Host.Outcome State Fault Refusal :=
  event (fun s => finishEvent (motorStart d s)) s

end Sys2Proof.Machine
end

