-- ==== Sys2Proof/Machine/Frames.lean ====
section
/-! DEFINITION. Whole transactions on the host link: reply reads, request frames judged byte by byte, and the frame
that a host request is (11, R174, R175; 12, R184); the meanings of READ, BAD_FRAME_REPLY and OVERRUN. -/

namespace Sys2Proof.Machine

open Sys2Proof

/-! ### Reply reads (11, R175; 12, R184) -/

/-- The frame sent when no reply is held: BUSY, length 0. -/
def busyFrame : List Byte := replyFrame { status := .busy, overrun := false, payload := [] }

/-- A reply read in which the host clocks `n` bytes after READ. It wakes a PARKED part unless it reads the PARK reply
(10, R170, R171). The held reply is sent and the link is IDLE; with a link reset pending, the end of the transaction is
the reset (10, R172). -/
def readTransaction (n : Nat) (s : State) : State :=
  match s.link.state with
  | .replyReady r =>
    let s := { s with link := { s.link with state := .idle, dataOut := clockedOut (replyFrame r) n } }
    if s.sup.pendingReset then linkReset s else s
  | _ =>
    let s := wake .link s
    { s with link := { s.link with dataOut := clockedOut busyFrame n } }

/-! ### Request frames (11, R174; 12, R184) -/

/-- Check 1: at least 3 bytes, the length byte 40 or less, the byte count equal to length + 3. -/
def wholeFrame (bs : List Byte) : Bool :=
  3 ≤ bs.length && (bs.getD 1 0).toNat ≤ 40 && bs.length = (bs.getD 1 0).toNat + 3

/-- Check 2: the CRC-8 over every byte before it matches. -/
def crcMatches (bs : List Byte) : Bool := bs.getLast? = some (crc8 bs.dropLast)

/-- Checks 1 and 2 pass: a valid request frame. -/
def intact (bs : List Byte) : Bool := wholeFrame bs && crcMatches bs

/-- The payload of an intact frame. -/
def payloadOf (bs : List Byte) : List Byte := (bs.drop 2).dropLast

/-- The payload lengths of the known commands 0x01 to 0x1F (12, R184). -/
def payloadLengths : List Nat :=
  [0, 0, 0, 0, 3, 0, 2, 0, 7, 1, 4, 28, 4, 2, 1, 1, 1, 0, 1, 3, 3, 1, 1, 7, 1, 7, 0, 3, 0, 2, 0]

/-- A known command's payload length. -/
def payloadLength (code : Nat) : Option Nat := if code = 0 then none else payloadLengths[code - 1]?

/-- A byte of a payload. -/
def byteAt (p : List Byte) (i : Nat) : Byte := p.getD i 0

/-- A number of `n` bytes at a place of a payload. -/
def numberAt (p : List Byte) (i n : Nat) : Nat := numberOf ((p.drop i).take n)

/-- APERTURE_COMMAND by its action code (12, R185). -/
def apertureCommand (p : List Byte) : State → State :=
  let a := byteAt p 0
  match (byteAt p 1).toNat with
  | 0 => reqLatch .locked a
  | 1 => reqLatch .unlocked a
  | 2 => reqLatch .deadlocked a
  | 3 => reqLatch .on a
  | 4 => reqLatch .off a
  | 5 => reqWindowMove .opening a
  | 6 => reqWindowMove .closing a
  | 7 => reqWindowTo a (byteAt p 2)
  | 8 => reqWindowStop a
  | 9 => reqLatch .release a
  | _ => ready (reply .badArgument [])

/-- RUN_RESOLVE by its action code (12, R185). -/
def runResolve (p : List Byte) : State → State :=
  match (byteAt p 1).toNat with
  | 0 => reqRunRetry (byteAt p 0)
  | 1 => reqRunAbandon (byteAt p 0)
  | _ => ready (reply .badArgument [])

/-- The owner's part of a known command with a payload of its length (12, R184). -/
def dispatch (code : Nat) (p : List Byte) : State → State :=
  let b := byteAt p
  match code with
  | 0x01 => reqDeviceStatus
  | 0x02 => reqDeviceStatusClear
  | 0x03 => reqReset
  | 0x04 => reqPark
  | 0x05 => reqVehicleState (BitVec.ofNat 16 (numberAt p 0 2)) (b 2)
  | 0x06 => reqAttentionRead
  | 0x07 => reqAttentionMask (BitVec.ofNat 16 (numberAt p 0 2))
  | 0x08 => reqSettingsRead
  | 0x09 => reqSettingsWrite (b 0) (b 1) (b 2) (b 3) (b 4) (b 5) (b 6)
  | 0x0A => reqKeyLookup (b 0)
  | 0x0B => reqKeyFind (BitVec.ofNat 32 (numberAt p 0 4))
  | 0x0C =>
    reqKeyEnroll (b 0) (BitVec.ofNat 32 (numberAt p 1 4)) (BitVec.ofNat 128 (numberAt p 5 16)) (b 21)
      (BitVec.ofNat 24 (numberAt p 22 3)) (b 25) (b 26) (b 27)
  | 0x0D => reqKeyProfile (b 0) (b 1) (b 2) (b 3)
  | 0x0E => reqKeyRole (b 0) (b 1)
  | 0x0F => reqKeySuspend (b 0)
  | 0x10 => reqKeyResume (b 0)
  | 0x11 => reqKeyRevoke (b 0)
  | 0x12 => reqEnrollOpen
  | 0x13 => reqApertureRead (b 0)
  | 0x14 => apertureCommand p
  | 0x15 => reqWindowSetup (b 0) (b 1) (b 2)
  | 0x16 => reqWindowRelearn (b 0)
  | 0x17 => reqStepRead (b 0)
  | 0x18 => reqStepWrite (b 0) (b 1) (b 2) (b 3) (b 4) (b 5) (b 6)
  | 0x19 => reqTriggerRead (b 0)
  | 0x1A => reqTriggerWrite (b 0) (b 1) (b 2) (b 3) (b 4) (BitVec.ofNat 16 (numberAt p 5 2))
  | 0x1B => reqChainsDefault
  | 0x1C => reqTriggerFire (b 0) (b 1) (b 2)
  | 0x1D => reqRunStatus
  | 0x1E => runResolve p
  | 0x1F => reqClearCrash
  | _ => reply .unknown []

/-- Checks 1 to 4 of 11, R174 in order; a frame that passes them goes to its owner. -/
def judgeFrame (bs : List Byte) : State → State :=
  if intact bs = false then reply .badFrame []
  else
    let code := (bs.getD 0 0).toNat
    match payloadLength code with
    | none => reply .unknown []
    | some n => if (payloadOf bs).length = n then dispatch code (payloadOf bs) else reply .badLength []

/-- A request transaction: chip select wakes a PARKED part; a valid frame counts as one whatever follows; while the
link is WORKING the frame is not judged and marks OVERRUN; otherwise it is judged through WORKING
(10, R167, R171; 11, R174, R175). -/
def requestTransaction (bs : List Byte) (s : State) : State :=
  let s := driveHigh bs.length (wake .link s)
  let s := if intact bs then validFrame s else s
  match s.link.state with
  | .working => markOverrun s
  | _ => judgeFrame bs (openRequest s)

/-- A whole transaction by its bytes: READ opens a reply read, any other first byte a request (12, R184; log entry
26). -/
def transaction (bs : List Byte) (s : State) : State :=
  match bs with
  | [] => requestTransaction [] s
  | b :: rest => if b = 0 then readTransaction rest.length s else requestTransaction (b :: rest) s

/-! ### The frame of a host request (12, R184) -/

/-- A number in `n` bytes, most significant first (12, R182). -/
def bytesOf : Nat → Nat → List Byte
  | 0, _ => []
  | n + 1, x => bytesOf n (x / 256) ++ [byte x]

/-- The command byte and the payload of a host request; none for the other commands. -/
def requestOf : Instr → Option (Byte × List Byte)
  | .deviceStatus => some (0x01, [])
  | .deviceStatusClear => some (0x02, [])
  | .reset => some (0x03, [])
  | .park => some (0x04, [])
  | .vehicleState v m => some (0x05, bytesOf 2 v.toNat ++ [m])
  | .attentionRead => some (0x06, [])
  | .attentionMask m => some (0x07, bytesOf 2 m.toNat)
  | .settingsRead => some (0x08, [])
  | .settingsWrite a b c d e f g => some (0x09, [a, b, c, d, e, f, g])
  | .keyLookup i => some (0x0A, [i])
  | .keyFind x => some (0x0B, bytesOf 4 x.toNat)
  | .keyEnroll i x k r c u p w =>
    some (0x0C, [i] ++ bytesOf 4 x.toNat ++ bytesOf 16 k.toNat ++ [r] ++ bytesOf 3 c.toNat ++ [u, p, w])
  | .keyProfile i u p w => some (0x0D, [i, u, p, w])
  | .keyRole i r => some (0x0E, [i, r])
  | .keySuspend i => some (0x0F, [i])
  | .keyResume i => some (0x10, [i])
  | .keyRevoke i => some (0x11, [i])
  | .enrollOpen => some (0x12, [])
  | .apertureRead a => some (0x13, [a])
  | .apertureCommandLock a => some (0x14, [a, 0, 0])
  | .apertureCommandUnlock a => some (0x14, [a, 1, 0])
  | .apertureCommandDeadlock a => some (0x14, [a, 2, 0])
  | .apertureCommandChildOn a => some (0x14, [a, 3, 0])
  | .apertureCommandChildOff a => some (0x14, [a, 4, 0])
  | .apertureCommandWindowOpen a => some (0x14, [a, 5, 0])
  | .apertureCommandWindowClose a => some (0x14, [a, 6, 0])
  | .apertureCommandWindowTo a p => some (0x14, [a, 7, p])
  | .windowStop a => some (0x14, [a, 8, 0])
  | .apertureCommandTailgateRelease a => some (0x14, [a, 9, 0])
  | .windowSetup d l x => some (0x15, [d, l, x])
  | .windowRelearn d => some (0x16, [d])
  | .stepRead i => some (0x17, [i])
  | .stepWrite i a s g r f n => some (0x18, [i, a, s, g, r, f, n])
  | .triggerRead i => some (0x19, [i])
  | .triggerWrite i s p g h c => some (0x1A, [i, s, p, g, h] ++ bytesOf 2 c.toNat)
  | .chainsDefault => some (0x1B, [])
  | .triggerFire s p o => some (0x1C, [s, p, o])
  | .runStatus => some (0x1D, [])
  | .runResolveRetry t => some (0x1E, [t, 0])
  | .runResolveAbandon t => some (0x1E, [t, 1])
  | .clearCrash => some (0x1F, [])
  | _ => none

/-- The request frame of a host request: command, length, payload, CRC-8 (11, R174; 12, R184). -/
def requestBytes (i : Instr) : Option (List Byte) :=
  (requestOf i).map fun x =>
    let body := x.1 :: byte x.2.length :: x.2
    body ++ [crc8 body]

/-! ### Meanings -/

/-- The meaning of READ. -/
def execRead (clocked : Nat) (s : State) : Host.Outcome State Fault Refusal := event (readTransaction clocked) s

/-- The meaning of BAD_FRAME_REPLY. -/
def execBadFrameReply (bytes : List Byte) (s : State) : Host.Outcome State Fault Refusal := event (transaction bytes) s

/-- The meaning of OVERRUN. -/
def execOverrun (bytes : List Byte) (s : State) : Host.Outcome State Fault Refusal := event (transaction bytes) s

end Sys2Proof.Machine
end

