-- ==== Sys2Proof/Machine/Dispatch.lean ====
section
/-! DEFINITION. The meaning of each command, by its constructor. -/

namespace Sys2Proof.Machine

open Sys2Proof

/-- The effect of a command on everything but the queue. -/
def exec (i : Instr) (s : State) : Host.Outcome State Fault Refusal :=
  match i with
  | .deviceStatus => Sys2Proof.Machine.execDeviceStatus s
  | .deviceStatusClear => Sys2Proof.Machine.execDeviceStatusClear s
  | .reset => Sys2Proof.Machine.execReset s
  | .park => Sys2Proof.Machine.execPark s
  | .vehicleState speed powerMode => Sys2Proof.Machine.execVehicleState speed powerMode s
  | .attentionRead => Sys2Proof.Machine.execAttentionRead s
  | .attentionMask mask => Sys2Proof.Machine.execAttentionMask mask s
  | .settingsRead => Sys2Proof.Machine.execSettingsRead s
  | .settingsWrite driverSide autoLock speedThreshold stagedWindow relockDelay retainedPower silenceExp => Sys2Proof.Machine.execSettingsWrite driverSide autoLock speedThreshold stagedWindow relockDelay retainedPower silenceExp s
  | .keyLookup slot => Sys2Proof.Machine.execKeyLookup slot s
  | .keyFind identity => Sys2Proof.Machine.execKeyFind identity s
  | .keyEnroll slot identity secret role counter unlockMode passiveEntry comfortWindows => Sys2Proof.Machine.execKeyEnroll slot identity secret role counter unlockMode passiveEntry comfortWindows s
  | .keyProfile slot unlockMode passiveEntry comfortWindows => Sys2Proof.Machine.execKeyProfile slot unlockMode passiveEntry comfortWindows s
  | .keyRole slot role => Sys2Proof.Machine.execKeyRole slot role s
  | .keySuspend slot => Sys2Proof.Machine.execKeySuspend slot s
  | .keyResume slot => Sys2Proof.Machine.execKeyResume slot s
  | .keyRevoke slot => Sys2Proof.Machine.execKeyRevoke slot s
  | .enrollOpen => Sys2Proof.Machine.execEnrollOpen s
  | .apertureRead aperture => Sys2Proof.Machine.execApertureRead aperture s
  | .apertureCommandLock aperture => Sys2Proof.Machine.execApertureCommandLock aperture s
  | .apertureCommandUnlock aperture => Sys2Proof.Machine.execApertureCommandUnlock aperture s
  | .apertureCommandDeadlock aperture => Sys2Proof.Machine.execApertureCommandDeadlock aperture s
  | .apertureCommandChildOn aperture => Sys2Proof.Machine.execApertureCommandChildOn aperture s
  | .apertureCommandChildOff aperture => Sys2Proof.Machine.execApertureCommandChildOff aperture s
  | .apertureCommandTailgateRelease aperture => Sys2Proof.Machine.execApertureCommandTailgateRelease aperture s
  | .apertureCommandWindowOpen aperture => Sys2Proof.Machine.execApertureCommandWindowOpen aperture s
  | .apertureCommandWindowClose aperture => Sys2Proof.Machine.execApertureCommandWindowClose aperture s
  | .apertureCommandWindowTo aperture percent => Sys2Proof.Machine.execApertureCommandWindowTo aperture percent s
  | .windowStop aperture => Sys2Proof.Machine.execWindowStop aperture s
  | .windowSetup window threshold autoClose => Sys2Proof.Machine.execWindowSetup window threshold autoClose s
  | .windowRelearn window => Sys2Proof.Machine.execWindowRelearn window s
  | .stepRead index => Sys2Proof.Machine.execStepRead index s
  | .stepWrite index action apertureSet argument minRole flags next => Sys2Proof.Machine.execStepWrite index action apertureSet argument minRole flags next s
  | .triggerRead index => Sys2Proof.Machine.execTriggerRead index s
  | .triggerWrite index start priority staging holdToRun cancelSet => Sys2Proof.Machine.execTriggerWrite index start priority staging holdToRun cancelSet s
  | .chainsDefault => Sys2Proof.Machine.execChainsDefault s
  | .triggerFire start priority origin => Sys2Proof.Machine.execTriggerFire start priority origin s
  | .runStatus => Sys2Proof.Machine.execRunStatus s
  | .runResolveRetry trigger => Sys2Proof.Machine.execRunResolveRetry trigger s
  | .runResolveAbandon trigger => Sys2Proof.Machine.execRunResolveAbandon trigger s
  | .clearCrash => Sys2Proof.Machine.execClearCrash s
  | .read clocked => Sys2Proof.Machine.execRead clocked s
  | .badFrameReply bytes => Sys2Proof.Machine.execBadFrameReply bytes s
  | .overrun bytes => Sys2Proof.Machine.execOverrun bytes s
  | .powerOnReset => Sys2Proof.Machine.execPowerOnReset s
  | .lowVoltageReset lowest => Sys2Proof.Machine.execLowVoltageReset lowest s
  | .scanComplete => Sys2Proof.Machine.execScanComplete s
  | .storeWriteStart => Sys2Proof.Machine.execStoreWriteStart s
  | .storeWriteComplete => Sys2Proof.Machine.execStoreWriteComplete s
  | .rfFrameArrival burst => Sys2Proof.Machine.execRfFrameArrival burst s
  | .frameTake => Sys2Proof.Machine.execFrameTake s
  | .searchStart => Sys2Proof.Machine.execSearchStart s
  | .challengeEnd => Sys2Proof.Machine.execChallengeEnd s
  | .searchComplete => Sys2Proof.Machine.execSearchComplete s
  | .enrollWindowExpiry => Sys2Proof.Machine.execEnrollWindowExpiry s
  | .rawInputChange change => Sys2Proof.Machine.execRawInputChange change s
  | .qualificationTimeExpiry input => Sys2Proof.Machine.execQualificationTimeExpiry input s
  | .deferredRequestTake => Sys2Proof.Machine.execDeferredRequestTake s
  | .supplyMeasurement millivolts => Sys2Proof.Machine.execSupplyMeasurement millivolts s
  | .latchHeldStart a => Sys2Proof.Machine.execLatchHeldStart a s
  | .latchDriveLimit a => Sys2Proof.Machine.execLatchDriveLimit a s
  | .releasePulseEnd => Sys2Proof.Machine.execReleasePulseEnd s
  | .releaseIntervalEnd => Sys2Proof.Machine.execReleaseIntervalEnd s
  | .hallEdge d gap => Sys2Proof.Machine.execHallEdge d gap s
  | .stallTimeout d => Sys2Proof.Machine.execStallTimeout d s
  | .noPulses d => Sys2Proof.Machine.execNoPulses d s
  | .runLimit d => Sys2Proof.Machine.execRunLimit d s
  | .coastEnd d => Sys2Proof.Machine.execCoastEnd d s
  | .motorStart d => Sys2Proof.Machine.execMotorStart d s
  | .retainedPowerExpiry => Sys2Proof.Machine.execRetainedPowerExpiry s
  | .speedStale => Sys2Proof.Machine.execSpeedStale s
  | .silenceTimerExpiry => Sys2Proof.Machine.execSilenceTimerExpiry s
  | .relockTimerExpiry => Sys2Proof.Machine.execRelockTimerExpiry s
  | .continuePointExpiry t => Sys2Proof.Machine.execContinuePointExpiry t s
  | .holdTimerExpiry t => Sys2Proof.Machine.execHoldTimerExpiry t s
  | .pauseEnd => Sys2Proof.Machine.execPauseEnd s
  | .engineChoice => Sys2Proof.Machine.execEngineChoice s
  | .partRestart => Sys2Proof.Machine.execPartRestart s

end Sys2Proof.Machine
end

