-- ==== Sys2Proof/Machine/Outputs.lean ====
section
/-! DEFINITION. The part's output lines, read off the state. (ATTN is `attn` in Flags.lean.) -/

namespace Sys2Proof.Machine

open Sys2Proof

/-- RDY: asserted while a reply is held (11, R175). -/
def rdy (s : State) : Bool :=
  match s.link.state with
  | .replyReady _ => true
  | .working => false
  | .idle => false

/-- WAKEOUT (10, R171). -/
def wakeout (s : State) : Bool := s.sup.wakeout

/-- The receiver enable output: asserted from any reset onward, in every mode (02, R20); a part held in a reset drives
nothing (log entry 13). -/
def receiverEnable (s : State) : Bool := s.power = .running

/-- What an aperture's actuator channel drives toward, if anything (04, R63). -/
def channelDrive (s : State) (a : Aperture) : Option HeldTarget := (latchAt s a).drive.map Drive.target

/-- TG's release solenoid is driven (04, R71). -/
def solenoid (s : State) : Bool := s.latches.pulse.isSome

/-- The direction in which a window's motor is driven, if it is (05, R91, R92). -/
def motor (s : State) (d : Door) : Option Direction :=
  let w := windowAt s d
  if w.phase = .running then w.motion.map fun m => m.move.dir else none

/-- The zone whose antenna sends and the challenge it sends, while the transmission lasts (02, R36). -/
def lfOutput (s : State) : Option (Zone × BitVec 32) :=
  match s.entry.search with
  | none => none
  | some x => if x.windowOpen then none else some (x.zone, x.challenge)

end Sys2Proof.Machine
end

