-- ==== Sys2Proof/WellFormed.lean ====
section
/-! DEFINITION. Which commands are what their row says they are. Every command has its meaning all the same: an
ill-formed one is only named wrongly. -/

namespace Sys2Proof

open Sys2Proof.Machine

/-- A request transaction: its first byte is not READ (12, R184). -/
def isRequest (bs : List Byte) : Bool :=
  match bs with
  | [] => true
  | b :: _ => b ≠ 0

/-- A frame that one of checks 1 to 4 of 11, R174 fails. -/
def failsCheck (bs : List Byte) : Bool :=
  !intact bs || payloadLength (bs.getD 0 0).toNat ≠ some (payloadOf bs).length

/-- A command as its row describes it: a BAD_FRAME_REPLY is a request frame that fails a check, an OVERRUN a request
frame, a LOW_VOLTAGE_RESET has a supply below 5.5 V. -/
def Instr.wellFormed : Instr → Bool
  | .badFrameReply bytes => isRequest bytes && failsCheck bytes
  | .overrun bytes => isRequest bytes
  | .lowVoltageReset lowest => lowest < 5500
  | _ => true

end Sys2Proof
end

