-- ==== Sys2Proof/Safety.lean ====
section
/-! DEFINITION. The conditions under which commands are stated to have their effect, and the invariants. -/

namespace Sys2Proof.Machine

open Sys2Proof

/-! ### When a request is taken -/

/-- The part runs and the link is free to take a request (10, R172; 11, R175). -/
def Listening (s : State) : Prop := s.power = .running ∧ s.link.state ≠ .working

/-- The part runs, the start-up scan has completed and the link is free to take a request (09, R162). -/
def Serving (s : State) : Prop := Listening s ∧ s.store.scanDone = true

/-- Nothing is on its way to the Chain Engine and no run can move: as every event leaves the engine. -/
def Settled (s : State) : Prop := s.mail = [] ∧ engineMove s = none

/-- A record's write waits in the queue with a content and a waiter (09, R159). -/
def Queued (s : State) (id : RecordId) (c : Content) (w : WriteWaiter) : Prop :=
  ∃ e ∈ s.store.queue, e.id = id ∧ e.content = c ∧ w ∈ e.waiters

/-- The host request that asks for a change of a slot (01, R10 to R14). -/
def keyCommand (i : Fin 8) : KeyChange → Instr
  | .enroll identity secret role counter p =>
    .keyEnroll (byte i.val) identity secret (byte (roleCode role)) counter (byte (unlockModeCode p.unlockMode))
      (byte (boolCode p.passiveEntry)) (byte (boolCode p.comfortWindows))
  | .profile p =>
    .keyProfile (byte i.val) (byte (unlockModeCode p.unlockMode)) (byte (boolCode p.passiveEntry))
      (byte (boolCode p.comfortWindows))
  | .role r => .keyRole (byte i.val) (byte (roleCode r))
  | .suspend => .keySuspend (byte i.val)
  | .resume => .keyResume (byte i.val)
  | .revoke => .keyRevoke (byte i.val)

/-- A change names no role SYSTEM (01, R19). -/
def KeyChange.sound : KeyChange → Prop
  | .enroll _ _ x _ _ => x ≠ .system
  | .role r => r ≠ .system
  | .profile _ => True
  | .suspend => True
  | .resume => True
  | .revoke => True

/-- The payload length of the request that asks for a change. -/
def KeyChange.bytes : KeyChange → Nat
  | .enroll _ _ _ _ _ => 28
  | .profile _ => 4
  | .role _ => 2
  | .suspend => 1
  | .resume => 1
  | .revoke => 1

/-- The APERTURE_COMMAND that asks a Latch Unit for a target (04, R83). -/
def latchCommand (aperture : Byte) : HeldTarget → Instr
  | .unlocked => .apertureCommandUnlock aperture
  | .locked => .apertureCommandLock aperture
  | .deadlocked => .apertureCommandDeadlock aperture
  | .on => .apertureCommandChildOn aperture
  | .off => .apertureCommandChildOff aperture
  | .release => .apertureCommandTailgateRelease aperture

/-! ### Which commands change which tables -/

/-- The commands that may reset the part, and the transactions told byte by byte, which may be any request. -/
def mayReset : Instr → Bool
  | .powerOnReset => true
  | .lowVoltageReset _ => true
  | .read _ => true
  | .badFrameReply _ => true
  | .overrun _ => true
  | _ => false

/-- The commands that may change a key record: the key requests, a frame judged, the scan, a write's completion
(01, R4, R6, R7; 02, R25 to R27). -/
def changesKeys : Instr → Bool
  | .keyEnroll _ _ _ _ _ _ _ _ => true
  | .keyProfile _ _ _ _ => true
  | .keyRole _ _ => true
  | .keySuspend _ => true
  | .keyResume _ => true
  | .keyRevoke _ => true
  | .frameTake => true
  | .scanComplete => true
  | .storeWriteComplete => true
  | _ => false

/-- The commands that may change a step or a trigger (07, R121 to R125). -/
def changesChains : Instr → Bool
  | .stepWrite _ _ _ _ _ _ _ => true
  | .triggerWrite _ _ _ _ _ _ => true
  | .chainsDefault => true
  | .scanComplete => true
  | _ => false

/-! ### The crash hold (04, R80) -/

/-- A crash drive, or a request of the crash, goes toward UNLOCKED (04, R79). -/
def crashUnlocks (u : LatchUnit) : Prop :=
  (∀ d, u.drive = some d → d.requester = .crash → d.target = .unlocked) ∧
    ∀ h, u.held = some h → h.requester = .crash → h.target = .unlocked

/-- Nothing on the channel is driven but toward UNLOCKED. -/
def onlyUnlocks (u : LatchUnit) : Prop := ∀ d, u.drive = some d → d.target = .unlocked

/-- A REVERSAL opens (06, R115). -/
def reversalOpens (m : Movement) : Prop := m.mode = .reversal → m.dir = .opening ∧ m.fixed = true

/-- Every REVERSAL of a window opens. -/
def reversalsOpen (w : Window) : Prop :=
  (∀ m, w.motion = some m → reversalOpens m.move) ∧ ∀ m, w.followOn = some m → reversalOpens m

/-- The window is not driven closing. -/
def notClosing (w : Window) : Prop := w.phase = .running → ∀ m, w.motion = some m → m.move.dir = .opening

/-- Under the crash hold no latch is driven toward LOCKED or DEADLOCKED, no child lock is driven, no window is driven
closing (04, R80); with what keeps it so. -/
def crashInvariant (s : State) : Prop :=
  (s.store.scanDone = false → s.latches.crashHold = true) ∧
  (∀ a, crashUnlocks (latchAt s a)) ∧ (∀ d, reversalsOpen (windowAt s d)) ∧
  (s.latches.crashHold = true → (∀ a, onlyUnlocks (latchAt s a)) ∧ ∀ d, notClosing (windowAt s d))

/-! ### The engine's holder (08, R144) -/

/-- At most one run is ACTIVE. -/
def oneActive (s : State) : Prop :=
  ∀ t u r x, runAt s t = some r → runAt s u = some x → r.state = .active → x.state = .active → t = u

/-- At most one run is ACTIVE, and no READY or SUSPENDED run has a priority above the ACTIVE run's. -/
def engineInvariant (s : State) : Prop :=
  oneActive s ∧
  ∀ t u r x, runAt s t = some r → runAt s u = some x → r.state = .active → waits x = true → x.priority ≤ r.priority

/-! ### Bounds (02, R21; 01, R1, R2, R5; 04, R65; 05, R85, R86; 06, R112, R114) -/

/-- A Latch Unit's credit lies within 0..3000 (04, R65). -/
def creditWithin (u : LatchUnit) : Prop := u.credit ≤ 3000

/-- A pinch score lies within 0..1023 and is 0 whenever the motor is not driving closing (06, R112). -/
def scoreWithin (w : Window) : Prop :=
  ∀ m, w.motion = some m → m.score ≤ 1023 ∧ (m.score = 0 ∨ w.phase = .running ∧ m.move.dir = .closing)

/-- A window's travel lies within 200..4000, a known position within its bound, the pinch count within 0..3, the pinch
score as 06, R112 gives (05, R85, R86; 06, R114). -/
def windowWithin (w : Window) : Prop :=
  (∀ l, w.record.travel = some l → 200 ≤ l ∧ l ≤ 4000) ∧
  (w.known = true → w.record.position ≤ bound w.record.travel) ∧ w.pinchCount ≤ 3 ∧ scoreWithin w

/-- Every Latch Unit and every window lies within its bounds. -/
def unitsWithin (s : State) : Prop := (∀ a, creditWithin (latchAt s a)) ∧ ∀ d, windowWithin (windowAt s d)

/-- The receive queue holds at most 2 frames, a reject count stops at 255, a speed is at most 255 km/h; every credit,
travel, known position, pinch count and pinch score lies within its range. -/
def bounded (s : State) : Prop :=
  s.entry.rfQueue.length ≤ 2 ∧ (∀ i, (keyAt s i).rejects ≤ 255) ∧ s.vehicle.speed ≤ 255 ∧ unitsWithin s

/-! ### Distinct identities (01, R2) -/

/-- A record is ACTIVE or SUSPENDED and has an identity (01, R2). -/
def names (k : KeyStored) (n : BitVec 32) : Prop := usable k = true ∧ k.identity = some n

/-- Two records of a table name one identity while both are ACTIVE or SUSPENDED (01, R2). -/
def sameIdentity (x y : KeyStored) : Prop := ∃ n, names x n ∧ names y n

/-- The identities of ACTIVE and SUSPENDED records are pairwise distinct (01, R2). -/
def identitiesApart (s : State) : Prop :=
  ∀ i j, i ≠ j → ¬sameIdentity (keyAt s i).stored (keyAt s j).stored

/-- The key records that the scan would hand over have pairwise distinct identities (01, R2, R4). -/
def receivedApart (f : Flash) : Prop := ∀ i j, i ≠ j → ¬sameIdentity (receivedKey f i) (receivedKey f j)

/-- The writes to come: the one in flight, then the queue in its order (09, R160). -/
def toCome (x : Store) : List (RecordId × Content) := (x.inFlight.toList ++ x.queue).map fun e => (e.id, e.content)

/-- The stored copies after a list of writes. -/
def written (f : Flash) (l : List (RecordId × Content)) : Flash := l.foldl (fun f p => writeFlash p.1 p.2 f) f

/-- After any number of the writes to come, the scan would hand over distinct identities (01, R2; 09, R161). -/
def writesApart : Flash → List (RecordId × Content) → Prop
  | f, [] => receivedApart f
  | f, p :: l => receivedApart f ∧ writesApart (writeFlash p.1 p.2 f) l

/-- A key record's write is awaited by the host change or the counter persist that offered it, alone (01, R6). -/
def awaitedAlone (i : Fin 8) (l : List WriteWaiter) : Prop := l = [.linkChange i] ∨ l = [.counterPersist i]

/-- A write is no key record's, and no key record's change waits for it. -/
def apartFromKeys (e : WriteEntry) : Prop :=
  ∀ i, e.id ≠ .key i ∧ .linkChange i ∉ e.waiters ∧ .counterPersist i ∉ e.waiters

/-- A queued write is apart from the keys, or is that of a record with its marker set, the only one queued for it
(01, R6). -/
def queuedWell (s : State) : Prop :=
  (∀ e ∈ s.store.queue, apartFromKeys e ∨
    ∃ i, e.id = .key i ∧ awaitedAlone i e.waiters ∧ (keyAt s i).marker ≠ .none) ∧
  ∀ i, (s.store.queue.filter fun e => e.id = .key i).length ≤ 1

/-- The write in flight is apart from the keys, or is a key record's: a rewrite of the repair list, or that of a record
with its marker set and none queued (01, R6; 09, R163). -/
def flightWell (s : State) : Prop :=
  ∀ e, s.store.inFlight = some e → apartFromKeys e ∨
    ∃ i, e.id = .key i ∧ (e.waiters = [] ∨
      awaitedAlone i e.waiters ∧ (keyAt s i).marker ≠ .none ∧ ∀ x ∈ s.store.queue, x.id ≠ .key i)

/-- The identities of the table are distinct, and those of the stored copies stay so after each write to come; the last
of them leaves no identity that the table has not. With what keeps it so: how key writes stand, whose counter a marker
waits for, that no key write stands before the scan completes, and that the repair list makes key records EMPTY
(01, R2, R4, R6; 02, R27; 09, R160 to R163). -/
def keysInvariant (s : State) : Prop :=
  identitiesApart s ∧ writesApart s.store.flash (toCome s.store) ∧
  (s.store.scanDone = true → ∀ i n,
    names (receivedKey (written s.store.flash (toCome s.store)) i) n → names (keyAt s i).stored n) ∧
  queuedWell s ∧ flightWell s ∧
  (∀ i, (keyAt s i).marker = .counterPersist →
    ∃ f, s.entry.processing = some { stamped := f, stage := .accepted i }) ∧
  (s.store.scanDone = false → s.store.inFlight = none ∧ ∀ e ∈ s.store.queue, apartFromKeys e) ∧
  ∀ p ∈ s.store.repair, ∀ i, p.1 = .key i → p.2 = .key KeyStored.empty

end Sys2Proof.Machine
end

