-- ==== Sys2Proof/Certificates/Slice0/Obligations.lean ====
section
/-! DEFINITION. The statements for the provers. A free value (Config) is never evaluated: what a statement says of it
holds for every value. -/

open Sys2Proof Sys2Proof.Machine

/-! ### The machine and its queue -/

/-- One step takes the command at the front of the queue and has its effect on the state with the rest of the queue.
On an empty queue 1 µs passes and nothing else (the model's choice, log entry 1). -/
def Obligations.StepTakesTheFrontCommand : Prop :=
  (∀ (c : Instr) (rest : List Instr) (s : State), s.pending = c :: rest → step s = exec c { s with pending := rest }) ∧
  (∀ s : State, s.pending = [] → step s = .next { s with now := s.now + 1 })

/-- Every command answers a next state, and no command touches the queue: the part never stops. -/
def Obligations.EveryCommandAnswersAndKeepsTheQueue : Prop :=
  ∀ (c : Instr) (s : State), ∃ t, exec c s = .next t ∧ t.pending = s.pending

/-- The frame of every command: each table and each slow piece of state is changed by its own commands alone, whatever
else a command sets going. The resets, the reply read that may end in one, and the transactions told byte by byte stand
aside; what they do is stated of them. -/
def Obligations.EachTableHasItsOwnCommands : Prop :=
  ∀ (c : Instr) (s t : State), mayReset c = false → exec c s = .next t →
    (changesKeys c = false → t.keys.recs = s.keys.recs) ∧
    (c ≠ .park → c ≠ .searchComplete → c ≠ .enrollWindowExpiry → t.keys.window = s.keys.window) ∧
    ((∀ d a v w r p n, c ≠ .settingsWrite d a v w r p n) → c ≠ .scanComplete →
      t.link.settings = s.link.settings) ∧
    ((∀ m, c ≠ .attentionMask m) → t.link.mask = s.link.mask) ∧
    (changesChains c = false → t.engine.steps = s.engine.steps ∧ t.engine.triggers = s.engine.triggers) ∧
    (c ≠ .storeWriteComplete → t.store.flash = s.store.flash) ∧
    (c ≠ .scanComplete → t.store.scanDone = s.store.scanDone) ∧
    (c ≠ .deviceStatusClear → t.sup.resetCause = s.sup.resetCause) ∧
    ((∀ v m, c ≠ .vehicleState v m) → t.vehicle.speed = s.vehicle.speed ∧ t.vehicle.taken = s.vehicle.taken ∧
      t.vehicle.powerMode = s.vehicle.powerMode) ∧
    ((∀ mv, c ≠ .supplyMeasurement mv) → t.vehicle.supply = s.vehicle.supply ∧
      t.vehicle.supplyHold = s.vehicle.supplyHold) ∧
    ((∀ b, c ≠ .rfFrameArrival b) → c ≠ .frameTake → t.entry.rfQueue = s.entry.rfQueue) ∧
    (c ≠ .clearCrash → c ≠ .scanComplete → c ≠ .qualificationTimeExpiry .crashLine →
      t.latches.crashHold = s.latches.crashHold) ∧
    (c ≠ .releasePulseEnd → c ≠ .releaseIntervalEnd → t.latches.interval = s.latches.interval)

/-- A part held in a low-voltage reset, or that has lost its state, takes no command but the resets, its restart and
the change of a wire (the last is the model's choice, log entry 13). -/
def Obligations.PartHeldInResetTakesNothing : Prop :=
  ∀ (c : Instr) (s : State), s.power ≠ .running → c ≠ .powerOnReset → (∀ v, c ≠ .lowVoltageReset v) →
    c ≠ .partRestart → (∀ x, c ≠ .rawInputChange x) → exec c s = .next s

/-! ### Resets -/

/-- What any reset leaves: each block at the values its own rules give after any reset. After a reset an ajar state is
OPEN, a pad is AWAITING_RELEASE, the crash line is READY and every delivered window switch position is NEUTRAL; the
wires keep their levels and their timing begins anew. Until the scan every reader has the default settings, no window
knows its position, the crash hold is in force, and the child locks read OFF without a fault. -/
def Obligations.AnyResetLeavesTheValuesAfterReset : Prop :=
  (∀ (p : Power) (cause : ResetCause) (s : State),
     let t := afterReset p cause s
     (t.sup.mode = .active ∧ t.sup.wakeCauses = 0 ∧ t.sup.wakeout = false ∧ t.sup.pendingReset = false ∧
       t.sup.resetCause = cause ∧
       t.sup.silence = some { start := s.now, interval := ms 800, atReset := true }) ∧
     (t.link.state = .idle ∧ t.link.overrun = false ∧ t.link.flags = 0 ∧ t.link.mask = BitVec.allOnes 16 ∧
       t.link.settings = Settings.default ∧ attn t = false ∧ rdy t = false) ∧
     (t.keys.window = none ∧ ∀ i, (keyAt t i).resync = none ∧ (keyAt t i).rejects = 0 ∧
       (keyAt t i).batteryLow = false ∧ (keyAt t i).marker = .none) ∧
     (t.entry.rfQueue = [] ∧ t.entry.processing = none ∧ t.entry.queue = [] ∧ t.entry.search = none ∧
       t.entry.access = none) ∧
     (t.vehicle.speed = 0 ∧ t.vehicle.taken = none ∧ t.vehicle.discard = true ∧ t.vehicle.powerMode = .off ∧
       t.vehicle.retained = none ∧ t.vehicle.supply = 0 ∧ t.vehicle.supplyHold = true) ∧
     (∀ a, (latchAt t a).drive = none ∧ (latchAt t a).held = none ∧ (latchAt t a).fault = .none ∧
       (latchAt t a).credit = 3000 ∧ (latchAt t a).target = .unlocked ∧ (latchAt t a).sensed = .unlocked) ∧
     (∀ r, (childAt t r).target = false ∧ (childAt t r).sensed = false ∧ (childAt t r).jam = false) ∧
     (t.latches.pulse = none ∧ t.latches.interval = none ∧ t.latches.deferred = [] ∧ t.latches.crashPending = false ∧
       t.latches.crashHold = true) ∧
     (∀ d, (windowAt t d).phase = .idle ∧ (windowAt t d).known = false ∧ (windowAt t d).motion = none ∧ (windowAt t d).followOn = none ∧
       (windowAt t d).pinchCount = 0 ∧ (windowAt t d).lastFault = .none ∧ (windowAt t d).pendingSetup = none ∧
       (windowAt t d).pendingRelearn = false ∧ (windowAt t d).consumedPack = false ∧
       (windowAt t d).consumedOwn = false) ∧
     (∀ u, runAt t u = none ∧ continueAt t u = none ∧ refireAt t u = none) ∧
     (t.engine.armed = true ∧ t.engine.relock = none ∧ t.engine.latest = none) ∧
     (t.store.scanDone = false ∧ t.store.queue = [] ∧ t.store.inFlight = none ∧ t.store.repair = [] ∧
       t.store.damage = ⟨0, 0, 0, 0, 0, 0⟩)) ∧
  (∀ (p : Power) (cause : ResetCause) (s : State),
     let t := afterReset p cause s
     (∀ a, (t.inputs.ajar.get a).value = true ∧ (t.inputs.ajar.get a).since = s.now ∧
       (t.inputs.ajar.get a).raw = (s.inputs.ajar.get a).raw) ∧
     (∀ a, (t.inputs.pair.get a).first = false ∧ (t.inputs.pair.get a).raw = (s.inputs.pair.get a).raw) ∧
     (∀ x, (padAt t.inputs x).ready = false) ∧ t.inputs.crashLine.ready = true ∧
     (∀ w, (switchAt t.inputs w).delivered = .neutral))

/-- The three resets and the restart: which flags of the reset-cause record each sets, keeps and clears, and whether
the part runs after it. A READ that ends with a link reset pending is that reset, its reply's bytes on data out. That
LOW_VOLTAGE is set at the row, and that a dip below 2,500 mV loses the state with the flags as they stand, is the
model's reading (log entry 27), and so is that the restart counts the silence timer anew. -/
def Obligations.ResetsSetTheirCauses : Prop :=
  (∀ s : State, exec .powerOnReset s =
    .next (afterReset .running { powerOn := true, lowVoltage := false, link := false } s)) ∧
  (∀ (v : Nat) (s : State), s.power = .running → v < 5500 → 2500 ≤ v → exec (.lowVoltageReset v) s =
    .next (afterReset .lowVoltage { s.sup.resetCause with lowVoltage := true } s)) ∧
  (∀ (v : Nat) (s : State), s.power = .running → v < 2500 → exec (.lowVoltageReset v) s =
    .next (afterReset .lost { s.sup.resetCause with lowVoltage := true } s)) ∧
  (∀ (n : Nat) (r : Reply) (s : State), s.power = .running → s.link.state = .replyReady r →
    s.sup.pendingReset = true → exec (.read n) s =
      .next (afterReset .running { s.sup.resetCause with link := true }
        { s with link := { s.link with dataOut := clockedOut (replyFrame r) n } })) ∧
  (∀ s : State, s.power = .lowVoltage → ∃ t, exec .partRestart s = .next t ∧ t.power = .running ∧
    t.sup.mode = s.sup.mode ∧ t.sup.resetCause = s.sup.resetCause ∧ t.store = s.store ∧
    t.sup.silence = s.sup.silence.map fun x => { x with start := s.now })

/-- A reset leaves every stored record as it was, but for the one whose write was in flight: that one holds its old
content, its new content, or is damaged. -/
def Obligations.ResetTearsOnlyTheWriteInFlight : Prop :=
  ∀ (p : Power) (cause : ResetCause) (s : State),
    (s.store.inFlight = none → (afterReset p cause s).store.flash = s.store.flash) ∧
    ∀ e, s.store.inFlight = some e →
      (afterReset p cause s).store.flash = s.store.flash ∨
      (afterReset p cause s).store.flash = writeFlash e.id e.content s.store.flash ∨
      (afterReset p cause s).store.flash = damageFlash e.id s.store.flash

/-! ### The host link -/

/-- Before the start-up scan completes every host request but DEVICE_STATUS is answered NOT_READY and changes nothing
else (that this comes before any other check is the model's reading, log entry 11). A frame that fails one of checks 1
to 4 is answered by the Link Interface itself: BAD_FRAME, and not a valid frame; UNKNOWN and BAD_LENGTH, and a valid
frame all the same. That a transaction without a byte is such a frame is the model's choice (log entry 26). A request
with an operand that is no value of its field is answered BAD_ARGUMENT and changes nothing else (mask bits: log
entry 36). -/
def Obligations.LinkAnswersWhatItCannotServe : Prop :=
  (∀ (c : Instr) (x : Byte × List Byte) (s : State), requestOf c = some x → c ≠ .deviceStatus → Listening s →
     s.store.scanDone = false → exec c s = .next (reply .notReady [] (taken x.2.length s))) ∧
  (∀ (bytes : List Byte) (s : State), isRequest bytes = true → Listening s →
     (intact bytes = false → exec (.badFrameReply bytes) s =
       .next (reply .badFrame [] (openRequest (driveHigh bytes.length (wake .link s))))) ∧
     (∀ n, intact bytes = true → bytes.length = n + 3 → payloadLength (bytes.getD 0 0).toNat = none →
       exec (.badFrameReply bytes) s = .next (reply .unknown [] (taken n s))) ∧
     (∀ n k, intact bytes = true → bytes.length = n + 3 → payloadLength (bytes.getD 0 0).toNat = some k → k ≠ n →
       exec (.badFrameReply bytes) s = .next (reply .badLength [] (taken n s)))) ∧
  (∀ s : State, Serving s →
     (∀ (i : Byte) (x : BitVec 32) (k : BitVec 128) (r : Byte) (c : BitVec 24) (u p w : Byte),
       8 ≤ i.toNat ∨ 3 ≤ r.toNat ∨ 2 ≤ u.toNat ∨ 2 ≤ p.toNat ∨ 2 ≤ w.toNat →
         exec (.keyEnroll i x k r c u p w) s = .next (reply .badArgument [] (taken 28 s))) ∧
     (∀ i u p w : Byte, 8 ≤ i.toNat ∨ 2 ≤ u.toNat ∨ 2 ≤ p.toNat ∨ 2 ≤ w.toNat →
       exec (.keyProfile i u p w) s = .next (reply .badArgument [] (taken 4 s))) ∧
     (∀ i r : Byte, 8 ≤ i.toNat ∨ 3 ≤ r.toNat →
       exec (.keyRole i r) s = .next (reply .badArgument [] (taken 2 s))) ∧
     (∀ i : Byte, 8 ≤ i.toNat → exec (.keySuspend i) s = .next (reply .badArgument [] (taken 1 s)) ∧
       exec (.keyResume i) s = .next (reply .badArgument [] (taken 1 s)) ∧
       exec (.keyRevoke i) s = .next (reply .badArgument [] (taken 1 s))) ∧
     (∀ i a x g r f n : Byte,
       64 ≤ i.toNat ∨ 12 ≤ a.toNat ∨ 64 ≤ x.toNat ∨ 3 ≤ r.toNat ∨ 32 ≤ f.toNat ∨ 64 ≤ n.toNat ∨
       (actionOf a = some .windowTo ∧ 100 < g.toNat) ∨
       (actionOf a = some .pause ∧ (g.toNat = 0 ∨ 250 < g.toNat)) →
         exec (.stepWrite i a x g r f n) s = .next (reply .badArgument [] (taken 7 s))) ∧
     (∀ (i b p g h : Byte) (c : BitVec 16),
       14 ≤ i.toNat ∨ (64 ≤ b.toNat ∧ b.toNat ≤ 254) ∨ 3 ≤ g.toNat ∨ 2 ≤ h.toNat ∨ 16384 ≤ c.toNat →
         exec (.triggerWrite i b p g h c) s = .next (reply .badArgument [] (taken 7 s))) ∧
     (∀ b p o : Byte, 64 ≤ b.toNat ∨ (5 ≤ o.toNat ∧ o.toNat ≤ 254) →
       exec (.triggerFire b p o) s = .next (reply .badArgument [] (taken 3 s))) ∧
     (∀ i : Byte, 14 ≤ i.toNat → exec (.runResolveRetry i) s = .next (reply .badArgument [] (taken 2 s)) ∧
       exec (.runResolveAbandon i) s = .next (reply .badArgument [] (taken 2 s))) ∧
     (∀ i n a : Byte, 4 ≤ i.toNat ∨ 2 ≤ a.toNat →
       exec (.windowSetup i n a) s = .next (reply .badArgument [] (taken 3 s))) ∧
     (∀ i : Byte, 4 ≤ i.toNat → exec (.windowRelearn i) s = .next (reply .badArgument [] (taken 1 s))))

/-- A request frame while the link is WORKING is not executed: it marks the request in progress OVERRUN and still
counts as a valid frame. The same for the frame told by its bytes; a frame that fails check 1 or 2 only marks. That a
transaction without a byte marks too is the model's choice (log entry 26). -/
def Obligations.RequestsWhileWorkingOnlyMarkOverrun : Prop :=
  (∀ (c : Instr) (x : Byte × List Byte) (s : State), requestOf c = some x → s.power = .running →
    s.link.state = .working → exec c s = .next (markOverrun (heard x.2.length s))) ∧
  (∀ (bytes : List Byte) (s : State), isRequest bytes = true → s.power = .running → s.link.state = .working →
    intact bytes = false →
      exec (.overrun bytes) s = .next (markOverrun (driveHigh bytes.length (wake .link s)))) ∧
  ∀ (bytes : List Byte) (n : Nat) (s : State), isRequest bytes = true → s.power = .running →
    s.link.state = .working → intact bytes = true → bytes.length = n + 3 →
      exec (.overrun bytes) s = .next (markOverrun (heard n s))

/-- A reply read sends the held reply's frame and the link is IDLE; with no reply held it sends BUSY and the link state
stays. -/
def Obligations.ReadSendsTheHeldReplyOrBusy : Prop :=
  (∀ (n : Nat) (r : Reply) (s : State), s.power = .running → s.link.state = .replyReady r →
    s.sup.pendingReset = false → exec (.read n) s =
      .next { s with link := { s.link with state := .idle, dataOut := clockedOut (replyFrame r) n } }) ∧
  (∀ (n : Nat) (s : State), s.power = .running → (∀ r, s.link.state ≠ .replyReady r) →
    ∃ t, exec (.read n) s = .next t ∧ t.link.state = s.link.state ∧
      t.link.dataOut = clockedOut (replyFrame { status := .busy, overrun := false, payload := [] }) n ∧
      t.sup.mode ≠ .parked ∧ (s.sup.mode ≠ .parked → t.sup = s.sup ∧ t.link.flags = s.link.flags))

/-- The frame of a host request, every operand at every value, told byte by byte, is that request: no bit of it is
dropped or read as another (that OVERRUN and BAD_FRAME_REPLY are judged by their bytes whatever the link state is the
model's choice, log entry 26). Every reply frame carries a correct CRC-8 and its length, and every request's own frame
passes checks 1 and 2. -/
def Obligations.FrameOfARequestIsThatRequest : Prop :=
  (∀ (c : Instr) (bytes : List Byte) (s : State), requestBytes c = some bytes →
     exec (.overrun bytes) s = exec c s ∧ exec (.badFrameReply bytes) s = exec c s) ∧
  ((∀ r : Reply, crcMatches (replyFrame r) = true ∧ (replyFrame r).length = r.payload.length + 3) ∧
   ∀ (c : Instr) (bytes : List Byte), requestBytes c = some bytes → intact bytes = true)

/-- ATTN is asserted exactly when the attention flag set and the attention mask have a flag in common. A flag raised is
in the set, masked or not; ATTENTION_READ and any reset empty the set and deassert the line; a mask write keeps the
set. -/
def Obligations.AttnFollowsFlagsAndMask : Prop :=
  (∀ s : State, attn s = true ↔ ∃ f : AttentionFlag, raised f s = true ∧ s.link.mask.getLsbD (flagBit f) = true) ∧
  (∀ (f : AttentionFlag) (s : State), raised f (raise f s) = true ∧ (raise f s).link.mask = s.link.mask) ∧
  (∀ (p : Power) (c : ResetCause) (s : State),
    (afterReset p c s).link.flags = 0 ∧ attn (afterReset p c s) = false) ∧
  ∀ s : State, Serving s →
    (∃ t, exec .attentionRead s = .next t ∧ t.link.flags = 0 ∧ attn t = false) ∧
    ∀ m, ∃ t, exec (.attentionMask m) s = .next t ∧ t.link.mask = m ∧ t.link.flags = (taken 2 s).link.flags

/-- ATTENTION_READ replies the set and empties it; ATTENTION_MASK replaces the mask and keeps the set; nothing else
changes. SETTINGS_WRITE clamps each number. Settings that change nothing reply OK at once; others are taken at once,
their write is queued, and the reply waits for it. A change of the driver side first delivers NEUTRAL for the front
passenger door's switch to the window it served; a change of auto-lock or of the threshold tests SPEED_LOCK (what the
test does: VehicleStateIsTakenAndGrowsStale). That the settings' write is queued after the writes of these effects is
the model's choice (log entry 49). An unknown code is refused. -/
def Obligations.AttentionAndSettingsRequests : Prop :=
  (∀ s : State, Serving s →
     (exec .attentionRead s =
       .next (reply .ok (bytes2 (taken 0 s).link.flags.toNat)
         { taken 0 s with link := { (taken 0 s).link with flags := 0 } })) ∧
     ∀ m, exec (.attentionMask m) s =
       .next (reply .ok [] { taken 2 s with link := { (taken 2 s).link with mask := m } })) ∧
  (∀ (d a : Byte) (h w r p n : Byte) (s : State), Serving s →
     (∀ x y, boolOf d = some x → boolOf a = some y →
       let new := clampSettings x y h.toNat w.toNat r.toNat p.toNat n.toNat
       (new = s.link.settings → exec (.settingsWrite d a h w r p n) s = .next (reply .ok [] (taken 7 s))) ∧
       (new ≠ s.link.settings → ∃ t, exec (.settingsWrite d a h w r p n) s = .next t ∧ t.link.settings = new ∧
         t.link.state = .working ∧ Queued t .settings (.settings new) .replyOk) ∧
       (new ≠ s.link.settings →
         let old := s.link.settings
         let s0 := taken 7 s
         let v := switchAt s0.inputs .passenger
         let served : Door := if old.driverFr then .fl else .fr
         let s1 := setInputs (setSwitch .passenger { v with delivered := .neutral } s0.inputs) s0
         let y := if new.driverFr = old.driverFr ∨ v.delivered = .neutral then s0
           else switchDelivery served true v.delivered .neutral s1
         let z := { y with link := { y.link with settings := new } }
         exec (.settingsWrite d a h w r p n) s = .next (offer .settings (.settings new) [.replyOk] (finishEvent
           (if new.autoLock = old.autoLock ∧ new.speedThreshold = old.speedThreshold then z else testSpeedLock z))))) ∧
     ((boolOf d = none ∨ boolOf a = none) →
       exec (.settingsWrite d a h w r p n) s = .next (reply .badArgument [] (taken 7 s))))

/-- The requests that only read reply OK with their record and change nothing; an index out of range is refused with
BAD_ARGUMENT. DEVICE_STATUS is answered during the scan too. APERTURE_READ replies the snapshot of one aperture, or of
all five in the order FL, FR, RL, RR, TG, and changes nothing. -/
def Obligations.ReadRequestsReplyTheirRecord : Prop :=
  ((∀ s : State, Listening s → exec .deviceStatus s = .next (reply .ok (statusPayload (taken 0 s)) (taken 0 s))) ∧
   (∀ s : State, Serving s →
     exec .settingsRead s = .next (reply .ok (settingsPayload s.link.settings) (taken 0 s)) ∧
     exec .runStatus s = .next (reply .ok (runPayload (taken 0 s)) (taken 0 s)) ∧
     (∀ (b : Byte) (i : Fin 8), b.toNat = i.val →
       exec (.keyLookup b) s = .next (reply .ok (keyPayload i (keyAt s i) s.now) (taken 1 s))) ∧
     (∀ b : Byte, 8 ≤ b.toNat → exec (.keyLookup b) s = .next (reply .badArgument [] (taken 1 s))) ∧
     (∀ (x : BitVec 32) (i : Fin 8), findIdentity s x = some i →
       exec (.keyFind x) s = .next (reply .ok [byte i.val] (taken 4 s))) ∧
     (∀ x : BitVec 32, findIdentity s x = none → exec (.keyFind x) s = .next (reply .notFound [] (taken 4 s))) ∧
     (∀ (b : Byte) (i : Fin 64), b.toNat = i.val →
       exec (.stepRead b) s = .next (reply .ok (stepPayload i (stepAt s i)) (taken 1 s))) ∧
     (∀ b : Byte, 64 ≤ b.toNat → exec (.stepRead b) s = .next (reply .badArgument [] (taken 1 s))) ∧
     (∀ (b : Byte) (t : Trigger), b.toNat = (triggerIndex t).val →
       exec (.triggerRead b) s = .next (reply .ok (triggerPayload (triggerAt s t) (continueAt s t)
         (refireAt s t).isSome (runAt s t).isSome s.now) (taken 1 s))) ∧
     (∀ b : Byte, 14 ≤ b.toNat → exec (.triggerRead b) s = .next (reply .badArgument [] (taken 1 s))))) ∧
  (∀ s : State, Serving s →
     (∀ (b : Byte) (a : Aperture), b.toNat = apertureCode a →
       exec (.apertureRead b) s = .next (reply .ok (snapshot (taken 1 s) a) (taken 1 s)) ∧
       (snapshot (taken 1 s) a).length = 38) ∧
     (exec (.apertureRead 5) s = .next (reply .ok (allApertures.flatMap (snapshot (taken 1 s))) (taken 1 s))) ∧
     ∀ b : Byte, 6 ≤ b.toNat → exec (.apertureRead b) s = .next (reply .badArgument [] (taken 1 s)))

/-- A wake source in PARKED: ACTIVE, the source joins the set, WAKE raised, WAKEOUT asserted, the silence timer
restarted, and nothing else changes; in ACTIVE and AUTONOMOUS nothing does. -/
def Obligations.WakeSourcesWakeOnlyAParkedPart : Prop :=
  ∀ (w : WakeSource) (s : State),
    (s.sup.mode ≠ .parked → wake w s = s) ∧
    (s.sup.mode = .parked → raised .wake (wake w s) = true ∧
      wake w s = { s with
        link := { s.link with flags := s.link.flags ||| flagMask .wake },
        sup := { s.sup with
          mode := .active, wakeout := true, wakeCauses := s.sup.wakeCauses ||| wakeMask w,
          silence := some { start := s.now, interval := silenceInterval s.link.settings, atReset := false } } })

/-- RESET replies OK and leaves a link reset pending; DEVICE_STATUS_CLEAR clears the reset-cause flags and empties the
wake-cause set; the silence timer's expiry in ACTIVE makes the part AUTONOMOUS and raises SILENCE. PARK is refused
with REFUSED(ACTIVITY), nothing changed, unless the part is at rest; then the part enters PARKED with all that goes
with it. The moments on the clock are log entry 2's. -/
def Obligations.SupervisionRequestsAndParking : Prop :=
  ((∀ s : State, Serving s →
     (exec .reset s =
       .next (reply .ok [] { taken 0 s with sup := { (taken 0 s).sup with pendingReset := true } })) ∧
     exec .deviceStatusClear s = .next (reply .ok [] { taken 0 s with sup := { (taken 0 s).sup with
       resetCause := { powerOn := false, lowVoltage := false, link := false }, wakeCauses := 0 } })) ∧
   ∀ (x : SilenceTimer) (s : State), s.power = .running → s.sup.mode = .active → s.sup.silence = some x →
     ∃ t, exec .silenceTimerExpiry s = .next t ∧ t.sup.mode = .autonomous ∧ t.sup.silence = none ∧
       raised .silence t = true ∧ t.now = max s.now (x.start + x.interval) ∧ t.vehicle = s.vehicle ∧
       t.engine = s.engine) ∧
  (∀ s : State, Serving s →
     (atRest (taken 0 s) = false → exec .park s = .next (reply (.refused .activity) [] (taken 0 s))) ∧
     (atRest (taken 0 s) = true → ∃ t, exec .park s = .next t ∧ t.sup.mode = .parked ∧ t.sup.silence = none ∧
       (∀ u, continueAt t u = none) ∧ t.keys.window = none ∧ t.vehicle.discard = true ∧ speedKnown t = false ∧
       t.vehicle.retained = none ∧ t.sup.wakeCauses = (taken 0 s).sup.wakeCauses ∧
       t.vehicle.powerMode = s.vehicle.powerMode ∧
       t.engine.armed = (taken 0 s).engine.armed ∧ (∀ w, (switchAt t.inputs w).delivered = .neutral) ∧
       t.link.state = .replyReady { status := .ok, overrun := s.link.overrun, payload := [] }))

/-! ### Vehicle inputs -/

/-- A VEHICLE_STATE taken sets speed (255 at most), its time and the power mode, ends the discard mark, and starts or
ends the retained-power period; an unknown power mode code is refused and nothing applied. More than 1000 ms after the
last VEHICLE_STATE speed is unknown and its value kept (the boundary: log entry 22). The retained-power period's
expiry ends it, and a gate that is then closed leaves every delivered position NEUTRAL, as one that a change of power
mode closes does. A power mode that leaves OFF stops the relock timer; speed 0 arms SPEED_LOCK; then SPEED_LOCK's
conditions are tested: armed, auto-lock on, speed known at or above the threshold and all five apertures CLOSED
together disarm the mark and fire SPEED_LOCK, and nothing happens otherwise. The moments on the clock are log entry
2's. -/
def Obligations.VehicleStateIsTakenAndGrowsStale : Prop :=
  (∀ (v : BitVec 16) (b : Byte) (s : State), Serving s →
     (powerModeOf b = none → exec (.vehicleState v b) s = .next (reply .badArgument [] (taken 3 s))) ∧
     (∀ p, powerModeOf b = some p → ∃ t, exec (.vehicleState v b) s = .next t ∧
       t.vehicle.speed = min 255 v.toNat ∧ t.vehicle.taken = some s.now ∧ t.vehicle.discard = false ∧
       t.vehicle.powerMode = p ∧ t.vehicle.supply = s.vehicle.supply ∧
       t.vehicle.supplyHold = s.vehicle.supplyHold ∧
       t.vehicle.retained =
         (if p = s.vehicle.powerMode then s.vehicle.retained
          else if s.vehicle.powerMode = .run ∧ p = .off ∧ 0 < s.link.settings.retainedPower then
            some (s.now + ms (s.link.settings.retainedPower * 1000))
          else none) ∧
       t.link.state = .replyReady { status := .ok, overrun := s.link.overrun, payload := [] }) ∧
     (∀ p, powerModeOf b = some p → ∃ x, exec (.vehicleState v b) s =
         .next (reply .ok [] (finishEvent (testSpeedLock x))) ∧
       x.vehicle.speed = min 255 v.toNat ∧ x.vehicle.powerMode = p ∧ x.vehicle.taken = some s.now ∧
       x.vehicle.discard = false ∧ x.now = s.now ∧ x.link.settings = s.link.settings ∧ x.sup = (taken 3 s).sup ∧
       (∀ a, isClosed x a = isClosed s a) ∧
       x.engine = { (taken 3 s).engine with
         relock := if s.vehicle.powerMode = .off ∧ p ≠ .off then none else s.engine.relock
         armed := if v.toNat = 0 then true else (taken 3 s).engine.armed } ∧
       (p ≠ s.vehicle.powerMode → gateOpen x = false → ∀ w, (switchAt x.inputs w).delivered = .neutral))) ∧
  (∀ s : State,
     let due := s.engine.armed = true ∧ s.link.settings.autoLock = true ∧ speedKnown s = true ∧
       s.link.settings.speedThreshold ≤ s.vehicle.speed ∧ ∀ a, isClosed s a = true
     (due → testSpeedLock s =
       (fire { trigger := .speedLock,
               carried := { origin := driverAperture s, role := .system, slot := none, profile := none },
               holdMark := false, request := none } { s with engine := { s.engine with armed := false } }).1) ∧
     (¬due → testSpeedLock s = s)) ∧
  ((∀ (x : Nat) (s : State), s.power = .running → s.vehicle.taken = some x →
     ∃ t, exec .speedStale s = .next t ∧ speedKnown t = false ∧ t.vehicle = s.vehicle ∧ t.latches = s.latches ∧
       t.windows = s.windows ∧ t.engine = s.engine) ∧
   ∀ (x : Nat) (s : State), s.power = .running → s.vehicle.retained = some x →
     ∃ t, exec .retainedPowerExpiry s = .next t ∧ t.vehicle = { s.vehicle with retained := none } ∧
       t.now = max s.now x ∧ (gateOpen t = false → ∀ w, (switchAt t.inputs w).delivered = .neutral))

/-- A supply measurement is held, at most 65,535; the supply hold starts below 9,000 and above 16,500 mV, ends within
9,500..16,000 mV and keeps its value between; nothing else changes. A raw level that changes restarts its input's
timing and touches nothing but that input, whose qualified value stays; a level that does not change changes nothing;
both contacts of a rocker made, and a window switch combination that matches no position, read as NEUTRAL. That the
wires of a part held in a reset change too is the model's reading (log entry 13). -/
def Obligations.SupplyAndWiresAreRead : Prop :=
  (∀ (mv : Nat) (s : State), s.power = .running →
     ∃ hold, exec (.supplyMeasurement mv) s =
         .next { s with vehicle := { s.vehicle with supply := min 65535 mv, supplyHold := hold } } ∧
       ((mv < 9000 ∨ 16500 < mv) → hold = true) ∧ (9500 ≤ mv → mv ≤ 16000 → hold = false) ∧
       ((9000 ≤ mv ∧ mv < 9500) ∨ (16000 < mv ∧ mv ≤ 16500) → hold = s.vehicle.supplyHold)) ∧
  ((∀ (x : Bool) (now : Nat) (q : Qual Bool), (q.raw = x → rawQual x now q = q) ∧
      (q.raw ≠ x → rawQual x now q = { q with raw := x, since := now })) ∧
   (∀ (x : Levels) (now : Nat) (q : Qual Levels), (q.raw = x → rawQual x now q = q) ∧
      (q.raw ≠ x → rawQual x now q = { q with raw := x, since := now })) ∧
   (∀ (x : RockerPos) (now : Nat) (q : Qual RockerPos), (q.raw = x → rawQual x now q = q) ∧
      (q.raw ≠ x → rawQual x now q = { q with raw := x, since := now })) ∧
   (∀ (x : SwitchPos) (now : Nat) (q : Qual SwitchPos), (q.raw = x → rawQual x now q = q) ∧
      (q.raw ≠ x → rawQual x now q = { q with raw := x, since := now })) ∧
   (∀ (x : Bool) (now : Nat) (p : PadState), (p.contact = x → rawPad x now p = p) ∧
      (p.contact ≠ x → rawPad x now p = { p with contact := x, since := now })) ∧
   (rockerOf true false = .lock ∧ rockerOf false true = .unlock ∧ rockerOf true true = .neutral ∧
      rockerOf false false = .neutral)) ∧
  (∀ s : State,
     let x := s.inputs
     let reads := fun (c : RawChange) (y : Inputs) => exec (.rawInputChange c) s = .next { s with inputs := y }
     (∀ a v, reads (.lockSwitch a v) { x with
       pair := x.pair.set a (rawQual { (x.pair.get a).raw with lock := v } s.now (x.pair.get a)) }) ∧
     (∀ d v, let a := doorAperture d
       reads (.deadlockSwitch d v) { x with
         pair := x.pair.set a (rawQual { (x.pair.get a).raw with dead := v } s.now (x.pair.get a)) }) ∧
     (∀ r v, reads (.childSwitch r v) { x with
       childSwitch := x.childSwitch.set r (rawQual v s.now (x.childSwitch.get r)) }) ∧
     (∀ a v, reads (.ajar a v) { x with ajar := x.ajar.set a (rawQual v s.now (x.ajar.get a)) }) ∧
     (∀ d v, reads (.handle d v) { x with handle := x.handle.set d (rawQual v s.now (x.handle.get d)) }) ∧
     (∀ f l u, reads (.rocker f l u) { x with
       rocker := x.rocker.set f (rawQual (rockerOf l u) s.now (x.rocker.get f)) }) ∧
     (∀ v, reads (.childButton v) { x with childButton := rawQual v s.now x.childButton }) ∧
     (∀ v, reads (.tailgateButton v) { x with tailgateButton := rawQual v s.now x.tailgateButton }) ∧
     (∀ p v, reads (.pad p v) (setPad p (rawPad v s.now (padAt x p)) x)) ∧
     (∀ w v, reads (.windowSwitch w (some v))
       (setSwitch w { switchAt x w with pos := rawQual v s.now (switchAt x w).pos } x)) ∧
     (∀ w, reads (.windowSwitch w none)
       (setSwitch w { switchAt x w with pos := rawQual .neutral s.now (switchAt x w).pos } x)) ∧
     (∀ v, (x.crashLine.asserted = v → reads (.crashLine v) x) ∧
       (x.crashLine.asserted ≠ v → reads (.crashLine v) { x with
         crashLine := { x.crashLine with asserted := v, since := s.now } })))

/-- A combination of a switch pair that qualifies while a latch drive runs: the sensed state takes it; a combination
equal to the drive's target ends the drive DONE, its elapsed time charged; INVALID ends it FAULT(SENSOR), with fault
SENSOR and LATCH_FAULT; any other leaves it running. With no latch drive a valid combination becomes sensed state and
target, but the target stays while a latch request is held, and INVALID is fault SENSOR with LATCH_FAULT and the target
kept; the first combination after a reset is always taken, INVALID as target UNLOCKED. A child-lock switch that
qualifies ends a child-lock drive DONE when it reads the drive's target, and otherwise leaves it running with its
target; with no such drive the target follows, but stays while a child-lock request is held. TG's own first combination
is stated in ControlsAreQualifiedAndDelivered. The rest of the event is what the engine makes of the outcomes. The
moments on the clock are log entry 2's. -/
def Obligations.QualifiedPairsEndDrives : Prop :=
  (∀ (a : Aperture) (v : Drive) (s : State), s.power = .running → due true (s.inputs.pair.get a) = true →
    (latchAt s a).drive = some v → actuatorOf v.target = .latch →
    (a = .tg → (s.inputs.pair.get a).first = true) →
      let q := sensedOf a (s.inputs.pair.get a).raw
      let now := max s.now ((s.inputs.pair.get a).since + Times.switchTime)
      let charged := (latchAt s a).credit - (now - v.start) / 1000
      let told := fun (o : OpOutcome) (x : State) => ∀ t, v.requester = .chain t → ∀ g ∈ v.tags,
        { trigger := t, serial := g.serial, count := g.count, aperture := a, outcome := o } ∈ x.mail
      ∃ x, exec (.qualificationTimeExpiry (.pair a)) s = .next (finishEvent x) ∧ x.now = now ∧
        (x.inputs.pair.get a).value = (s.inputs.pair.get a).raw ∧ (x.inputs.pair.get a).first = true ∧
        (latchAt x a).sensed = q ∧ (latchAt x a).target = (latchAt s a).target ∧
        (q = latchStateOf v.target → (latchAt x a).drive = none ∧ (latchAt x a).credit = charged ∧
          (latchAt x a).fault = (latchAt s a).fault ∧ told .done x) ∧
        (q = .invalid → (latchAt x a).drive = none ∧ (latchAt x a).credit = charged ∧
          (latchAt x a).fault = .sensor ∧ raised .latchFault x = true ∧ told (.fault .sensor) x) ∧
        (q ≠ .invalid → q ≠ latchStateOf v.target → (latchAt x a).drive = some v)) ∧
  -- a pair with no latch drive
  (∀ (a : Aperture) (s : State), s.power = .running → due true (s.inputs.pair.get a) = true →
    (∀ v, (latchAt s a).drive = some v → actuatorOf v.target ≠ .latch) →
    (a = .tg → (s.inputs.pair.get a).first = true) →
      let p := s.inputs.pair.get a
      let q := sensedOf a p.raw
      let u := { latchAt s a with sensed := q }
      let s1 := setInputs { s.inputs with pair := s.inputs.pair.set a (qualified p) }
        (clockTo (p.since + Times.switchTime) s)
      let becomes := fun (w : LatchUnit) (x : State) =>
        exec (.qualificationTimeExpiry (.pair a)) s = .next (finishEvent (setLatch a w x))
      (q = .invalid → p.first = true → becomes { u with fault := .sensor } (raise .latchFault s1)) ∧
      (q = .invalid → p.first = false →
        becomes { u with target := .unlocked, fault := .sensor } (raise .latchFault s1)) ∧
      (∀ h, q ≠ .invalid → p.first = true → u.held = some h → actuatorOf h.target = .latch → becomes u s1) ∧
      (q ≠ .invalid → p.first = false ∨ (∀ h, u.held = some h → actuatorOf h.target ≠ .latch) →
        becomes { u with target := q } s1)) ∧
  -- a child-lock switch
  ∀ (r : Rear) (s : State), s.power = .running → due true (s.inputs.childSwitch.get r) = true →
    let a := doorAperture (rearDoorOf r)
    let p := s.inputs.childSwitch.get r
    let c := { childAt s r with sensed := p.raw }
    let u := latchAt s a
    let s1 := setChild r c (setInputs { s.inputs with childSwitch := s.inputs.childSwitch.set r (qualified p) }
      (clockTo (p.since + Times.switchTime) s))
    let gives := fun (x : State) => exec (.qualificationTimeExpiry (.childSwitch r)) s = .next (finishEvent x)
    (∀ v, u.drive = some v → actuatorOf v.target = .child →
      (p.raw = decide (v.target = .on) → gives (tell v.requester v.tags a (fun _ => .done) (setLatch a
        { u with drive := none, credit := u.credit - (s1.now - v.start) / 1000, restFrom := s1.now } s1))) ∧
      (p.raw ≠ decide (v.target = .on) → gives s1)) ∧
    ((∀ v, u.drive = some v → actuatorOf v.target ≠ .child) →
      (∀ h, p.first = true → u.held = some h → actuatorOf h.target = .child → gives s1) ∧
      (p.first = false ∨ (∀ h, u.held = some h → actuatorOf h.target ≠ .child) →
        gives (setChild r { c with target := p.raw } s1)))

/-- A qualified ajar change wakes a PARKED part and is the aperture's new ajar state; a change to OPEN arms SPEED_LOCK
and stops the relock timer and, on a front door, ends the retained-power period; a change to CLOSED tests SPEED_LOCK
(what the test does: VehicleStateIsTakenAndGrowsStale). Contact held 50 ms on a READY pad is a touch: the pad awaits
release, a PARKED part wakes and, in power mode OFF, the pad's search is requested; outside OFF nothing more happens.
Contact on a pad that awaits release is nothing; 20 ms without contact make it READY again. The moments on the clock
are log entry 2's. -/
def Obligations.AjarChangesAndTouchesAreDelivered : Prop :=
  (∀ (a : Aperture) (s : State), s.power = .running → (s.inputs.ajar.get a).raw ≠ (s.inputs.ajar.get a).value →
     let q := s.inputs.ajar.get a
     let s1 := wake .ajar (setInputs { s.inputs with ajar := s.inputs.ajar.set a (qualified q) }
       (clockTo (q.since + Times.ajarTime) s))
     let s2 := { s1 with engine := { s1.engine with armed := true, relock := none } }
     (q.raw = false → exec (.qualificationTimeExpiry (.ajar a)) s = .next (finishEvent (testSpeedLock s1))) ∧
     (q.raw = true → a ≠ .fl → a ≠ .fr → exec (.qualificationTimeExpiry (.ajar a)) s = .next (finishEvent s2)) ∧
     (q.raw = true → a = .fl ∨ a = .fr → ∃ x, exec (.qualificationTimeExpiry (.ajar a)) s = .next (finishEvent x) ∧
       x.engine = s2.engine ∧ x.vehicle = { s.vehicle with retained := none } ∧ x.latches = s.latches ∧
       x.sup = s1.sup ∧ x.inputs.ajar = s1.inputs.ajar ∧ x.now = s1.now ∧
       (gateOpen x = false → ∀ w, (switchAt x.inputs w).delivered = .neutral)) ∧
     (∃ x, exec (.qualificationTimeExpiry (.ajar a)) s = .next (finishEvent x) ∧
       (x.inputs.ajar.get a).value = q.raw ∧ x.sup.mode ≠ .parked ∧ x.now = max s.now (q.since + Times.ajarTime) ∧
       (q.raw = true → x.engine.armed = true ∧ x.engine.relock = none ∧
         ((a = .fl ∨ a = .fr) → x.vehicle.retained = none)))) ∧
  (∀ (p : Pad) (s : State), s.power = .running → (padAt s.inputs p).contact = true →
     let v := padAt s.inputs p
     let s1 := wake .touch (setInputs (setPad p { v with ready := false } s.inputs)
       (clockTo (v.since + Times.touchTime) s))
     (v.ready = false → Settled s → exec (.qualificationTimeExpiry (.pad p)) s = .next s) ∧
     (v.ready = true → s1.sup.mode ≠ .parked ∧
       (s.vehicle.powerMode = .off → exec (.qualificationTimeExpiry (.pad p)) s =
         .next (finishEvent (requestSearch (padSearch p).1 (padSearch p).2 [] s1))) ∧
       (s.vehicle.powerMode ≠ .off → exec (.qualificationTimeExpiry (.pad p)) s = .next (finishEvent s1))) ∧
     (v.ready = true → Settled s → s.vehicle.powerMode = .off → s.entry.search = none → s.entry.queue = [] →
       ∃ t, exec (.qualificationTimeExpiry (.pad p)) s = .next t ∧ (padAt t.inputs p).ready = false ∧
         t.entry.queue = [{ zone := (padSearch p).1, purpose := (padSearch p).2, waiters := [] }] ∧
         t.now = max s.now (v.since + Times.touchTime))) ∧
  (padSearch .flUnlock = (.left, .unlockTouch) ∧ padSearch .flLock = (.left, .lockTouch) ∧
    padSearch .frUnlock = (.right, .unlockTouch) ∧ padSearch .frLock = (.right, .lockTouch)) ∧
  (∀ (p : Pad) (s : State), s.power = .running → Settled s → (padAt s.inputs p).contact = false →
     ((padAt s.inputs p).ready = true → exec (.qualificationTimeExpiry (.pad p)) s = .next s) ∧
     ((padAt s.inputs p).ready = false → exec (.qualificationTimeExpiry (.pad p)) s =
       .next (setInputs (setPad p { padAt s.inputs p with ready := true } s.inputs)
         (clockTo ((padAt s.inputs p).since + Times.padReleaseTime) s))))

/-- Handles, rockers, buttons, the child-lock switch and the window switches, qualified after 20 ms. The first value an
input qualifies after a reset is taken without an event; later a pull, a press or a rocker position wakes a PARKED part
where its row says so and is delivered to its owner, or deferred. An input with nothing to qualify is left alone. What
a delivery does: a request whose conditions have not ceased is deferred; a pull asks for an unlock by the table of R69;
a rocker press fires its trigger, a DEADLOCKED door ignores it; a child-lock press asks OFF at both rear doors when
both targets are ON, and ON otherwise; a tailgate press is routed by TG's sensed state, and waits among the deferred
requests while that has not first qualified: sensed LOCKED then gives it to the Entry Unit, any other state leaves it
its place for TG's Latch Unit; a window switch's position acts by the tables of R94 and R96 (a HELD movement that waits as follow-on
is upgraded too: log entry 39). The moments on the clock are log entry 2's. -/
def Obligations.ControlsAreQualifiedAndDelivered : Prop :=
  (∀ s : State, s.power = .running →
    (∀ d, let q := s.inputs.handle.get d
      let s1 := setInputs { s.inputs with handle := s.inputs.handle.set d (qualified q) }
        (clockTo (q.since + ms 20) s)
      (due true q = true → q.first = true → q.raw = true →
        exec (.qualificationTimeExpiry (.handle d)) s = .next (finishEvent (takeOrDefer (.pull d) (wake .handle s1)))) ∧
      (due true q = true → q.first = false ∨ q.raw = false →
        exec (.qualificationTimeExpiry (.handle d)) s = .next (finishEvent s1)) ∧
      (due true q = false → exec (.qualificationTimeExpiry (.handle d)) s = .next (finishEvent s))) ∧
    (∀ f, let q := s.inputs.rocker.get f
      let s1 := setInputs { s.inputs with rocker := s.inputs.rocker.set f (qualified q) }
        (clockTo (q.since + ms 20) s)
      (due true q = true → q.first = true → q.raw ≠ .neutral → exec (.qualificationTimeExpiry (.rocker f)) s =
        .next (finishEvent (takeOrDefer (.rocker f (q.raw = .lock)) (wake .rocker s1)))) ∧
      (due true q = true → q.first = false ∨ q.raw = .neutral →
        exec (.qualificationTimeExpiry (.rocker f)) s = .next (finishEvent s1)) ∧
      (due true q = false → exec (.qualificationTimeExpiry (.rocker f)) s = .next (finishEvent s))) ∧
    (let q := s.inputs.childButton
      let s1 := setInputs { s.inputs with childButton := qualified q } (clockTo (q.since + ms 20) s)
      (due true q = true → q.first = true → q.raw = true → exec (.qualificationTimeExpiry .childButton) s =
        .next (finishEvent (takeOrDefer .childButton s1))) ∧
      (due true q = true → q.first = false ∨ q.raw = false →
        exec (.qualificationTimeExpiry .childButton) s = .next (finishEvent s1)) ∧
      (due true q = false → exec (.qualificationTimeExpiry .childButton) s = .next (finishEvent s))) ∧
    (let q := s.inputs.tailgateButton
      let s1 := setInputs { s.inputs with tailgateButton := qualified q } (clockTo (q.since + ms 20) s)
      (due true q = true → q.first = true → q.raw = true → exec (.qualificationTimeExpiry .tailgateButton) s =
        .next (finishEvent (tailgatePressed (wake .tailgateButton s1)))) ∧
      (due true q = true → q.first = false ∨ q.raw = false →
        exec (.qualificationTimeExpiry .tailgateButton) s = .next (finishEvent s1)) ∧
      (due true q = false → exec (.qualificationTimeExpiry .tailgateButton) s = .next (finishEvent s))) ∧
    (∀ r, let q := s.inputs.childSwitch.get r
      (due true q = true → exec (.qualificationTimeExpiry (.childSwitch r)) s = .next (finishEvent
        (childSensed r q.raw (!q.first) (setInputs { s.inputs with
          childSwitch := s.inputs.childSwitch.set r (qualified q) } (clockTo (q.since + ms 20) s))))) ∧
      (due true q = true → ∃ x, exec (.qualificationTimeExpiry (.childSwitch r)) s = .next (finishEvent x) ∧
        (childAt x r).sensed = q.raw ∧ (x.inputs.childSwitch.get r).value = q.raw ∧
        x.now = max s.now (q.since + ms 20)) ∧
      (due true q = false → exec (.qualificationTimeExpiry (.childSwitch r)) s = .next (finishEvent s))) ∧
    (∀ w, let q := (switchAt s.inputs w).pos
      let s1 := setInputs (setSwitch w { switchAt s.inputs w with pos := qualified q } s.inputs)
        (clockTo (q.since + ms 20) s)
      (q.raw ≠ q.value →
        (q.raw = .neutral →
          exec (.qualificationTimeExpiry (.windowSwitch w)) s = .next (finishEvent (releaseSwitch s1 w))) ∧
        (q.raw ≠ .neutral → gateOpen s = true →
          exec (.qualificationTimeExpiry (.windowSwitch w)) s = .next (finishEvent (deliverSwitch w q.raw s1))) ∧
        (q.raw ≠ .neutral → gateOpen s = false →
          exec (.qualificationTimeExpiry (.windowSwitch w)) s = .next (finishEvent s1))) ∧
      (q.raw = q.value → exec (.qualificationTimeExpiry (.windowSwitch w)) s = .next (finishEvent s)))) ∧
  -- what a delivery does
  (∀ (x : Deferred) (s : State), (mayTake s x = true → takeOrDefer x s = takeNow x s) ∧
     (mayTake s x = false → takeOrDefer x s =
       { s with latches := { s.latches with deferred := s.latches.deferred ++ [x] } })) ∧
  (∀ (d : Door) (s : State),
     let a := doorAperture d
     let u := latchAt s a
     (u.sensed = .deadlocked ∨ u.sensed = .invalid ∨ childLocked s d = true → takeNow (.pull d) s = s) ∧
     (childLocked s d = false → u.sensed = .locked →
       (latchGoes u (· = .unlocked) = false → takeNow (.pull d) s = (requestLatch a .unlocked .handle [] s).1) ∧
       (latchGoes u (· = .unlocked) = true → takeNow (.pull d) s = s)) ∧
     (childLocked s d = false → u.sensed = .unlocked →
       (latchGoes u (· ≠ .unlocked) = true → takeNow (.pull d) s = (requestLatch a .unlocked .handle [] s).1) ∧
       (latchGoes u (· ≠ .unlocked) = false → takeNow (.pull d) s = s))) ∧
  (∀ (f : Front) (toLock : Bool) (s : State),
     let a := doorAperture (frontDoorOf f)
     ((latchAt s a).sensed = .deadlocked → takeNow (.rocker f toLock) s = s) ∧
     ((latchAt s a).sensed ≠ .deadlocked → takeNow (.rocker f toLock) s =
       (fire { trigger := if toLock then .insideLock else .insideUnlock,
               carried := { origin := a, role := .system, slot := none, profile := none },
               holdMark := false, request := none } s).1)) ∧
  (∀ s : State,
     ((childAt s .rl).target = true → (childAt s .rr).target = true → takeNow .childButton s =
       (requestLatch .rr .off .childButton [] (requestLatch .rl .off .childButton [] s).1).1) ∧
     ((childAt s .rl).target = false ∨ (childAt s .rr).target = false → takeNow .childButton s =
       (requestLatch .rr .on .childButton [] (requestLatch .rl .on .childButton [] s).1).1)) ∧
  (∀ s : State,
     (pairQualified s .tg = false → tailgatePressed s =
       { s with latches := { s.latches with deferred := s.latches.deferred ++ [.release] } }) ∧
     (pairQualified s .tg = true → tailgatePressed s = routeTailgate s) ∧
     ((latchAt s .tg).sensed = .locked → routeTailgate s = requestSearch .rear .tailgateButton [] s) ∧
     ((latchAt s .tg).sensed ≠ .locked → routeTailgate s = takeOrDefer .release s) ∧
     takeNow .release s = (requestLatch .tg .release .handle [] s).1 ∧
     (let q := s.inputs.pair.get .tg
      let s1 := latchSensed .tg (sensedOf .tg q.raw) true
        (setInputs { s.inputs with pair := s.inputs.pair.set .tg (qualified q) } (clockTo (q.since + ms 20) s))
      s.power = .running → q.first = false → exec (.qualificationTimeExpiry (.pair .tg)) s =
        .next (finishEvent (routeWaiting s1))) ∧
     ((latchAt s .tg).sensed ≠ .locked → routeWaiting s = s) ∧
     ((latchAt s .tg).sensed = .locked →
       (.release ∉ s.latches.deferred → routeWaiting s = s) ∧
       (.release ∈ s.latches.deferred → routeWaiting s = requestSearch .rear .tailgateButton []
         { s with latches := { s.latches with deferred := s.latches.deferred.filter (· ≠ .release) } }))) ∧
  -- a delivered window switch position
  (∀ (d : Door) (own : Bool) (old new : SwitchPos) (s : State),
     let w := windowAt s d
     let marked := fun (x : Bool) => setWindow d (setConsumed own x w) s
     (own = true → childLocked s d = true → switchDelivery d own old new s = s) ∧
     (own = false ∨ childLocked s d = false → reversing w = true →
       (new = .neutral → switchDelivery d own old new s = marked false) ∧
       (new ≠ .neutral → old = .neutral → switchDelivery d own old new s = marked true) ∧
       (new ≠ .neutral → old ≠ .neutral → switchDelivery d own old new s = s)) ∧
     (own = false ∨ childLocked s d = false → reversing w = false →
       let mine := fun m : Movement => m.mode = .held ∧ m.requester = switchRequester own
       let auto := fun m : Movement => m.mode = .toEnd ∨ m.mode = .toPosition
       let ask := fun dir mode => (takeMovement d (plainMove dir mode (switchRequester own) []) s).1
       -- NEUTRAL
       (new = .neutral →
         (∀ m, inProgress w = true → w.motion = some m → mine m.move →
           switchDelivery d own old new s = stopMovement d none (marked false)) ∧
         ((∀ m, inProgress w = true → w.motion = some m → ¬mine m.move) →
           (∀ f, w.followOn = some f → mine f →
             switchDelivery d own old new s = removeFollowOn d none (marked false)) ∧
           ((∀ f, w.followOn = some f → ¬mine f) → switchDelivery d own old new s = marked false))) ∧
       -- any other position with the mark set
       (new ≠ .neutral → consumed w own = true → switchDelivery d own old new s = s) ∧
       (∀ dir, switchDirection new = some dir → consumed w own = false →
         -- from NEUTRAL or from the other direction
         (switchDirection old ≠ some dir →
           (∀ m, inProgress w = true → w.motion = some m → auto m.move →
             let s1 := stopMovement d (some .overridden) s
             switchDelivery d own old new s = setWindow d (setConsumed own true (windowAt s1 d)) s1) ∧
           ((∀ m, inProgress w = true → w.motion = some m → ¬auto m.move) →
             (∀ f, w.followOn = some f → auto f →
               let s1 := removeFollowOn d (some .overridden) s
               switchDelivery d own old new s = setWindow d (setConsumed own true (windowAt s1 d)) s1) ∧
             ((∀ f, w.followOn = some f → ¬auto f) →
               let toEnd := moveDenial s.latches.crashHold w dir .toEnd
               let held := moveDenial s.latches.crashHold w dir .held
               (isAuto new = true → toEnd = none → switchDelivery d own old new s = ask dir .toEnd) ∧
               (isAuto new = true → toEnd = some .crashHold → switchDelivery d own old new s = s) ∧
               (isAuto new = false ∨ (toEnd ≠ none ∧ toEnd ≠ some .crashHold) →
                 (held = none → switchDelivery d own old new s = ask dir .held) ∧
                 (held ≠ none → switchDelivery d own old new s = s))))) ∧
         -- from the first detent to the automatic detent, and back
         (switchDirection old = some dir →
           (isAuto new = false ∨ isAuto old = true → switchDelivery d own old new s = s) ∧
           (isAuto new = true → isAuto old = false →
             ((∃ m, inProgress w = true ∧ w.motion = some m ∧ mine m.move ∧ m.move.dir = dir) ∨
               (∃ f, w.followOn = some f ∧ mine f ∧ f.dir = dir) →
               (moveDenial s.latches.crashHold w dir .toEnd = none →
                 switchDelivery d own old new s = ask dir .toEnd) ∧
               (moveDenial s.latches.crashHold w dir .toEnd ≠ none → switchDelivery d own old new s = s)) ∧
             ((∀ m, inProgress w = true → w.motion = some m → ¬(mine m.move ∧ m.move.dir = dir)) →
               (∀ f, w.followOn = some f → ¬(mine f ∧ f.dir = dir)) →
                 switchDelivery d own old new s = s))))))

/-! ### The crash -/

/-- A crash at the Latch Units: the hold is in force, no request is held, no child-lock drive runs, every latch drive
goes toward UNLOCKED with requester CRASH, a latch that is not both qualified and sensed UNLOCKED is driven, and CRASH
is raised. That a drive which another requester's UNLOCK took over from CRASH is replaced by a new crash drive, so that
no other requester is left, is the model's reading (log entry 14). Premise: a crash drive goes toward UNLOCKED (kept by
every step, see CrashHoldIsKept). -/
def Obligations.CrashReleasesEveryLatch : Prop :=
  ∀ s : State, (∀ a, crashUnlocks (latchAt s a)) →
    (crashLatches s).latches.crashHold = true ∧ raised .crash (crashLatches s) = true ∧
    ∀ a, (latchAt (crashLatches s) a).held = none ∧ (latchAt (crashLatches s) a).target = .unlocked ∧
      (∀ d, (latchAt (crashLatches s) a).drive = some d → d.target = .unlocked ∧ d.requester = .crash) ∧
      (pairQualified s a = false ∨ (latchAt s a).sensed ≠ .unlocked →
        (latchAt (crashLatches s) a).drive.isSome = true)

/-- The crash line asserted 2 ms while READY is a crash event: it awaits deassertion and a PARKED part wakes; the five
Latch Units take the crash, then the four windows stop and lose their follow-on, then CRASH is fired with role SYSTEM at
the driver aperture, or, during the scan, kept pending. At the Latch Units: the hold is in force, and its write is
queued when the hold was CLEAR, during the scan at the first crash event; each held request is removed, its requester
told OVERRIDDEN; a child lock that was driven or held takes its sensed state as target; a crash drive that runs keeps
its time; any other drive is charged and its requester told OVERRIDDEN; a latch qualified and sensed UNLOCKED is then
not driven, and any other starts a crash drive of its own (a drive taken over from CRASH too: log entry 14). The order
of latches, windows and firing is log entry 10's, the moments on the clock are log entry 2's. While the line awaits
deassertion, assertion delivers nothing, and 2 ms without assertion make it READY again; deasserted while READY it
delivers nothing. -/
def Obligations.CrashLineGivesACrashEvent : Prop :=
  (∀ s : State, s.power = .running → s.inputs.crashLine.ready = true → s.inputs.crashLine.asserted = true →
    let l := s.inputs.crashLine
    let s1 := wake .crash (setInputs { s.inputs with crashLine := { l with ready := false } }
      (clockTo (l.since + Times.crashTime) s))
    let y := allDoors.foldl crashWindow (crashLatches s1)
    (s.store.scanDone = true → exec (.qualificationTimeExpiry .crashLine) s = .next (finishEvent
      (fire { trigger := .crash,
              carried := { origin := driverAperture s, role := .system, slot := none, profile := none },
              holdMark := false, request := none } y).1)) ∧
    (s.store.scanDone = false → exec (.qualificationTimeExpiry .crashLine) s =
      .next (finishEvent { y with latches := { y.latches with crashPending := true } })) ∧
    y.latches = (crashLatches s1).latches ∧ y.inputs.crashLine.ready = false ∧ y.sup.mode ≠ .parked ∧
    y.now = max s.now (l.since + Times.crashTime) ∧ raised .crash y = true ∧
    ∀ d, (windowAt y d).phase ≠ .running ∧ (windowAt y d).phase ≠ .marking ∧ (windowAt y d).followOn = none) ∧
  -- the Latch Units
  (∀ s : State,
    let x := crashLatches s
    let written := (offer .crash (.crash true) [] s).store
    let told := fun (q : Requester) (g : List Tag) (a : Aperture) => ∀ t, q = .chain t → ∀ n ∈ g,
      { trigger := t, serial := n.serial, count := n.count, aperture := a, outcome := .overridden } ∈ x.mail
    x.latches.crashHold = true ∧ raised .crash x = true ∧
    (s.store.scanDone = true → (s.latches.crashHold = false → x.store = written) ∧
      (s.latches.crashHold = true → x.store = s.store)) ∧
    (s.store.scanDone = false → (s.latches.crashPending = false → x.store = written) ∧
      (s.latches.crashPending = true → x.store = s.store)) ∧
    (∀ a, let u := latchAt s a
      let v := latchAt x a
      let open' := pairQualified s a = true ∧ u.sensed = .unlocked
      let crashDrive : Drive := { target := .unlocked, requester := .crash, tags := [], start := s.now }
      v.held = none ∧ v.target = .unlocked ∧ v.fault = .none ∧ v.sensed = u.sensed ∧
      (∀ h, u.held = some h → told h.requester h.tags a) ∧
      (u.drive = none → (open' → v.drive = none ∧ v.credit = u.credit) ∧
        (¬open' → v.drive = some crashDrive ∧ v.credit = creditOf u s.now)) ∧
      (∀ d, u.drive = some d → d.requester = .crash → actuatorOf d.target ≠ .child →
        v.drive = some d ∧ v.credit = u.credit) ∧
      (∀ d, u.drive = some d → d.requester ≠ .crash ∨ actuatorOf d.target = .child →
        let charged := u.credit - (s.now - d.start) / 1000
        told d.requester d.tags a ∧ (open' → v.drive = none ∧ v.credit = charged) ∧
          (¬open' → v.drive = some crashDrive ∧ v.credit = min 3000 charged))) ∧
    ∀ r, let u := latchAt s (doorAperture (rearDoorOf r))
      let busy := (∃ h, u.held = some h ∧ actuatorOf h.target = .child) ∨
        ∃ d, u.drive = some d ∧ actuatorOf d.target = .child
      (busy → childAt x r = { childAt s r with target := (childAt s r).sensed }) ∧
      (¬busy → childAt x r = childAt s r)) ∧
  (∀ s : State, s.power = .running → s.inputs.crashLine.ready = true → s.inputs.crashLine.asserted = true →
    ∃ x, exec (.qualificationTimeExpiry .crashLine) s = .next (finishEvent x) ∧
      x.inputs.crashLine.ready = false ∧ x.sup.mode ≠ .parked ∧ x.latches.crashHold = true ∧
      x.now = max s.now (s.inputs.crashLine.since + Times.crashTime) ∧
      (∀ d, (windowAt x d).phase ≠ .running) ∧ raised .crash x = true ∧
      (s.store.scanDone = false → x.latches.crashPending = true)) ∧
  -- the line awaiting deassertion, and deasserted while READY
  ∀ s : State, s.power = .running →
    let l := s.inputs.crashLine
    (l.ready = false → l.asserted = false → exec (.qualificationTimeExpiry .crashLine) s = .next (finishEvent
      (setInputs { s.inputs with crashLine := { l with ready := true } } (clockTo (l.since + ms 2) s)))) ∧
    (l.ready = false → l.asserted = true → exec (.qualificationTimeExpiry .crashLine) s = .next (finishEvent s)) ∧
    (l.ready = true → l.asserted = false → exec (.qualificationTimeExpiry .crashLine) s = .next (finishEvent s))

/-- CLEAR_CRASH: refused unless speed is known 0; OK at once when the hold is CLEAR; otherwise the hold is CLEAR at
once, its write is queued and the reply waits for it. -/
def Obligations.ClearCrashNeedsAStandstill : Prop :=
  ∀ s : State, Serving s →
    (speedZero (taken 0 s) = false → exec .clearCrash s = .next (reply (.refused .speed) [] (taken 0 s))) ∧
    (speedZero (taken 0 s) = true → s.latches.crashHold = false →
      exec .clearCrash s = .next (reply .ok [] (taken 0 s))) ∧
    (speedZero (taken 0 s) = true → s.latches.crashHold = true → ∃ t, exec .clearCrash s = .next t ∧
      t.latches = { s.latches with crashHold := false } ∧ t.link.state = .working ∧
      Queued t .crash (.crash false) .replyOk)

/-- Whatever the command: under the crash hold no latch is driven toward LOCKED or DEADLOCKED, no child lock is driven
and no window is driven closing. Every step keeps it. -/
def Obligations.CrashHoldIsKept : Prop :=
  ∀ s t : State, crashInvariant s → step s = .next t → crashInvariant t

/-- The invariant of the crash hold holds after reset, and it says what is driven under the hold. No run exists after
reset, so the engine's invariant holds and nothing is on its way to it; the receive queue, the reject counts, the speed,
the credits and the windows lie within their bounds; and the invariant of the identities holds (BoundsAreKept says what
follows from it). -/
def Obligations.InvariantsStandAtReset : Prop :=
  (crashInvariant State.reset ∧
   ∀ s : State, crashInvariant s → s.latches.crashHold = true →
     (∀ a x, channelDrive s a = some x → x = .unlocked) ∧ ∀ d, motor s d ≠ some .closing) ∧
  (engineInvariant State.reset ∧ Settled State.reset ∧ bounded State.reset ∧ keysInvariant State.reset)

/-! ### Keys -/

/-- A key change that passes its checks, on a record without a marker: the working copy changes as its rule gives, the
marker is LINK_CHANGE, the write of the whole record is queued and the link stays WORKING; no other record changes. A
key change that fails a check is refused with the status of the first that fails; one with nothing to change replies
OK at once; neither changes the table. One that finds the record's marker set waits. The checks in their order:
permission (NO_WINDOW), the slot's state (SLOT_BUSY, NOT_FOUND, REFUSED(DAMAGED)), a free identity (DUPLICATE_ID), the
last ACTIVE MASTER (LAST_MASTER). What each request sets: an enrollment makes the record ACTIVE with all it carries and the
volatile fields as at reset; a profile, a role, a suspension and a resumption set that one field; a revocation makes the
record EMPTY. Nothing to change is a profile or a role that stands already, a suspension of a SUSPENDED record and a
resumption of an ACTIVE one. -/
def Obligations.KeyChangesAreMadeAndWritten : Prop :=
  (∀ (i : Fin 8) (c : KeyChange) (s : State), Serving s → c.sound → (keyAt s i).marker = .none →
     keyCheck s i c = none → nothingToChange (keyAt s i) c = false →
       ∃ t, exec (keyCommand i c) s = .next t ∧
         keyAt t i = { changed (keyAt s i) c with marker := .linkChange } ∧
         (∀ j, j ≠ i → keyAt t j = keyAt s j) ∧ t.keys.window = s.keys.window ∧ t.link.state = .working ∧
         Queued t (.key i) (.key (changed (keyAt s i) c).stored) (.linkChange i)) ∧
  (∀ (i : Fin 8) (c : KeyChange) (s : State), Serving s → c.sound →
     ((keyAt s i).marker = .none → ∀ st, keyCheck s i c = some st →
       exec (keyCommand i c) s = .next (reply st [] (taken c.bytes s))) ∧
     ((keyAt s i).marker = .none → keyCheck s i c = none → nothingToChange (keyAt s i) c = true →
       exec (keyCommand i c) s = .next (reply .ok [] (taken c.bytes s))) ∧
     ((keyAt s i).marker ≠ .none → exec (keyCommand i c) s =
       .next { taken c.bytes s with keys := { s.keys with waiting := some (i, c) } })) ∧
  -- the checks, in their order
  (∀ (i : Fin 8) (c : KeyChange) (s : State),
     let k := (keyAt s i).stored
     let isOpen := s.keys.window ≠ none
     let inUse := fun x : KeyStored => x.state = .active ∨ x.state = .suspended
     let master := fun x : KeyStored => x.state = .active ∧ x.role = .master
     let taken' := fun x : BitVec 32 => ∃ j, inUse (keyAt s j).stored ∧ (keyAt s j).stored.identity = some x
     let takesLast := (∃ j, master (keyAt s j).stored) ∧ ¬master (changed (keyAt s i) c).stored ∧
       ∀ j, j ≠ i → ¬master (keyAt s j).stored
     (∀ x y r n p, c = .enroll x y r n p →
       let permitted := isOpen ∨ (r = .master ∧ ∀ j, ¬master (keyAt s j).stored)
       (¬permitted → keyCheck s i c = some .noWindow) ∧
       (permitted → k.state ≠ .empty → keyCheck s i c = some .slotBusy) ∧
       (permitted → k.state = .empty → taken' x → keyCheck s i c = some .duplicateId) ∧
       (permitted → k.state = .empty → ¬taken' x → keyCheck s i c = none)) ∧
     (∀ p, c = .profile p →
       (k.state = .empty → keyCheck s i c = some .notFound) ∧
       (k.state = .damaged → keyCheck s i c = some (.refused .damaged)) ∧ (inUse k → keyCheck s i c = none)) ∧
     ((∃ r, c = .role r) ∨ c = .suspend ∨ c = .resume →
       (k.state = .empty → keyCheck s i c = some .notFound) ∧
       (k.state = .damaged → keyCheck s i c = some (.refused .damaged)) ∧
       (inUse k → ¬isOpen → keyCheck s i c = some .noWindow) ∧
       (inUse k → isOpen → c ≠ .resume → takesLast → keyCheck s i c = some .lastMaster) ∧
       (inUse k → isOpen → c = .resume ∨ ¬takesLast → keyCheck s i c = none)) ∧
     (c = .revoke →
       (k.state = .empty → keyCheck s i c = some .notFound) ∧ (k.state = .damaged → keyCheck s i c = none) ∧
       (inUse k → ¬isOpen → keyCheck s i c = some .noWindow) ∧
       (inUse k → isOpen → takesLast → keyCheck s i c = some .lastMaster) ∧
       (inUse k → isOpen → ¬takesLast → keyCheck s i c = none))) ∧
  -- what each request sets, and when there is nothing to change
  ∀ k : KeyRecord,
     let fresh := fun x : KeyStored =>
       { k with stored := x, resync := none, rejects := 0, batteryLow := false }
     let blank : KeyStored :=
       { state := .empty, identity := none, secret := 0, role := .valet, counter := 0,
         profile := { unlockMode := .all, passiveEntry := false, comfortWindows := false } }
     (∀ x y r n p, let made : KeyStored :=
         { state := .active, identity := some x, secret := y, role := r, counter := n, profile := p }
       changed k (.enroll x y r n p) = fresh made ∧ nothingToChange k (.enroll x y r n p) = false) ∧
     (∀ p, changed k (.profile p) = { k with stored := { k.stored with profile := p } } ∧
       (nothingToChange k (.profile p) = true ↔ k.stored.profile = p)) ∧
     (∀ r, changed k (.role r) = { k with stored := { k.stored with role := r } } ∧
       (nothingToChange k (.role r) = true ↔ k.stored.role = r)) ∧
     (changed k .suspend = { k with stored := { k.stored with state := .suspended } } ∧
       (nothingToChange k .suspend = true ↔ k.stored.state = .suspended)) ∧
     (changed k .resume = { k with stored := { k.stored with state := .active } } ∧
       (nothingToChange k .resume = true ↔ k.stored.state = .active)) ∧
     (changed k .revoke = fresh blank ∧ nothingToChange k .revoke = false)

/-- No key request leaves the key table without an ACTIVE MASTER record when it held one before, and neither does any
other command but the resets and the scan: a key change that waited, begun when a write completes, among them. -/
def Obligations.TheLastMasterStays : Prop :=
  (∀ (i : Fin 8) (c : KeyChange) (s t : State), exec (keyCommand i c) s = .next t →
    1 ≤ masterCount s.keys.recs → 1 ≤ masterCount t.keys.recs) ∧
  ∀ (c : Instr) (s t : State), c ≠ .powerOnReset → (∀ v, c ≠ .lowVoltageReset v) → c ≠ .scanComplete →
    (mayReset c = true → s.sup.pendingReset = false) → exec c s = .next t →
      1 ≤ masterCount s.keys.recs → 1 ≤ masterCount t.keys.recs

/-! ### Entry -/

/-- Counter acceptance: the frame's counter against the record's by d = (F − C) modulo 16,777,216. -/
def Obligations.CountersAreJudgedByTheirDifference : Prop :=
  ∀ (k : KeyRecord) (f : StampedFrame), k.stored.state = .active →
    Config.frameCheck k.stored.secret f.frame.identity f.frame.counter
      (BitVec.ofNat 3 (fobCommandCode f.frame.command)) = f.frame.check →
    let d := (f.frame.counter.toNat + 16777216 - k.stored.counter.toNat) % 16777216
    (d = 0 ∨ (8388608 ≤ d ∧ d ≤ 16777215) → verdict k f = .reject .stale) ∧
    (1 ≤ d ∧ d ≤ 64 → verdict k f = .accept) ∧
    (65 ≤ d ∧ d ≤ 16384 → verdict k f = if resyncConfirmed k f then .accept else .reject .resyncPending) ∧
    (16385 ≤ d ∧ d ≤ 8388607 → verdict k f = .reject .far)

/-- FRAME_TAKE takes the head of the receive queue. A frame of no key is dropped; one whose record has a host change in
progress waits at the match; otherwise it is judged. A reject adds 1 to the reject count (up
to 255), raises KEY_REJECT, writes the access record and fires nothing; an accept takes the counter, clears the pending
value and the reject count, sets the marker and queues the write while the command is held. The verdict: a SUSPENDED
record's frame is rejected SUSPENDED, whatever its check; an ACTIVE record's frame with a wrong check is rejected CHECK,
whatever its counter (the classes of the counter: CountersAreJudgedByTheirDifference); a RESYNC frame is confirmed when the
record holds a pending counter, the frame's is its successor, and it arrived at most 3,000 ms after the pending one. -/
def Obligations.FramesAreTakenAndJudged : Prop :=
  (∀ (k : KeyRecord) (f : StampedFrame),
    let check := Config.frameCheck k.stored.secret f.frame.identity f.frame.counter
      (BitVec.ofNat 3 (fobCommandCode f.frame.command))
    (k.stored.state = .suspended → verdict k f = .reject .suspended) ∧
    (k.stored.state = .active → check ≠ f.frame.check → verdict k f = .reject .check) ∧
    (resyncConfirmed k f = true ↔ ∃ fp tp, k.resync = some (fp, tp) ∧
      (f.frame.counter.toNat + 16777216 - fp.toNat) % 16777216 = 1 ∧ f.arrival ≤ tp + ms 3000)) ∧
  ∀ (f : StampedFrame) (rest : List StampedFrame) (s : State), s.power = .running →
    s.store.scanDone = true → s.entry.processing = none → s.entry.rfQueue = f :: rest →
    (findIdentity s f.frame.identity = none →
      exec .frameTake s = .next { s with entry := { s.entry with rfQueue := rest } }) ∧
    (∀ i, findIdentity s f.frame.identity = some i → (keyAt s i).marker = .linkChange →
      exec .frameTake s = .next { s with entry := { s.entry with
        rfQueue := rest, processing := some { stamped := f, stage := .atMatch i } } }) ∧
    ∀ i, findIdentity s f.frame.identity = some i → (keyAt s i).marker ≠ .linkChange →
      (∀ r, verdict (keyAt s i) f = .reject r → ∃ t, exec .frameTake s = .next t ∧
        (keyAt t i).stored = (keyAt s i).stored ∧ (keyAt t i).rejects = min 255 ((keyAt s i).rejects + 1) ∧
        (keyAt t i).resync =
          (if r = .resyncPending then some (f.frame.counter, f.arrival) else (keyAt s i).resync) ∧
        raised .keyReject t = true ∧ t.entry.processing = none ∧ t.entry.rfQueue = rest ∧
        t.entry.access = some { slot := i, command := accessOfFob f.frame.command, result := .rejected r } ∧
        t.engine = s.engine ∧ t.store = s.store) ∧
      (verdict (keyAt s i) f = .accept → ∃ t, exec .frameTake s = .next t ∧
        keyAt t i = { stored := { (keyAt s i).stored with counter := f.frame.counter }, resync := none, rejects := 0,
                      batteryLow := f.frame.batteryLow, marker := .counterPersist } ∧
        t.entry.processing = some { stamped := f, stage := .accepted i } ∧ t.entry.rfQueue = rest ∧
        t.engine = s.engine ∧
        Queued t (.key i) (.key { (keyAt s i).stored with counter := f.frame.counter }) (.counterPersist i))

/-- A burst at RFIN: a command frame joins the receive queue while it holds fewer than 2, and is dropped otherwise; a
malformed one changes nothing but what a wake does. A response frame in an open response window adds the slot of each
candidate it is correct for, once; outside it, a response changes nothing but what a wake does. -/
def Obligations.BurstsAreSorted : Prop :=
  (∀ (b : List Byte) (s : State), s.power = .running →
     (readBurst b = .malformed → exec (.rfFrameArrival b) s = .next (wake .rf s)) ∧
     (∀ f, readBurst b = .command f →
       (s.entry.rfQueue.length < 2 → exec (.rfFrameArrival b) s = .next
         { wake .rf s with entry := { s.entry with
             rfQueue := s.entry.rfQueue ++ [{ frame := f, arrival := s.now }] } }) ∧
       (2 ≤ s.entry.rfQueue.length → exec (.rfFrameArrival b) s = .next (wake .rf s)))) ∧
  (∀ (b : List Byte) (y r : BitVec 32) (s : State), s.power = .running → readBurst b = .response y r →
     (∀ x, s.entry.search = some x → x.windowOpen = true → ∃ found, exec (.rfFrameArrival b) s = .next
         { wake .rf s with entry := { s.entry with search := some { x with found := x.found ++ found } } } ∧
       ∀ i, i ∈ x.found ++ found ↔ i ∈ x.found ∨ ∃ c ∈ x.candidates, c.slot = i ∧ c.identity = y ∧
         Config.responseOf c.secret c.identity x.challenge = r) ∧
     ((∀ x, s.entry.search = some x → x.windowOpen = false) → exec (.rfFrameArrival b) s = .next (wake .rf s)))

/-- ENROLL_OPEN queues an ENROLL search in zone INTERIOR and withholds its reply. A search request merges with the
search in flight or the queued request of its zone and purpose, which keeps its place, or takes the tail. A search
starts from the head of the queue with the candidates captured; after the transmission its window opens; an enrollment
window closes at its expiry. The moments on the clock are log entry 2's. -/
def Obligations.SearchesStartAndOpenTheirWindow : Prop :=
  (∀ s : State, Serving s → s.entry.search = none → s.entry.queue = [] →
    ∃ t, exec .enrollOpen s = .next t ∧ t.link.state = .working ∧ t.keys = s.keys ∧
      t.entry = { s.entry with queue := [{ zone := .interior, purpose := .enroll, waiters := [.link] }] }) ∧
  ((∀ s : State, Serving s →
     exec .enrollOpen s = .next (requestSearch .interior .enroll [.link] (taken 0 s))) ∧
   ∀ (z : Zone) (p : Purpose) (l : List SearchWaiter) (s : State),
     (∀ f, s.entry.search = some f → f.zone = z → f.purpose = p → requestSearch z p l s =
       { s with entry := { s.entry with search := some { f with waiters := f.waiters ++ l } } }) ∧
     ((∀ f, s.entry.search = some f → ¬(f.zone = z ∧ f.purpose = p)) →
       ((∃ q ∈ s.entry.queue, q.zone = z ∧ q.purpose = p) → requestSearch z p l s =
         { s with entry := { s.entry with queue := s.entry.queue.map fun q =>
             if q.zone = z ∧ q.purpose = p then { q with waiters := q.waiters ++ l } else q } }) ∧
       ((∀ q ∈ s.entry.queue, ¬(q.zone = z ∧ q.purpose = p)) → requestSearch z p l s =
         { s with entry := { s.entry with
             queue := s.entry.queue ++ [{ zone := z, purpose := p, waiters := l }] } }))) ∧
  (∀ (q : SearchRequest) (rest : List SearchRequest) (s : State), s.power = .running → s.store.scanDone = true →
    s.entry.search = none → s.entry.queue = q :: rest → ∃ x t, exec .searchStart s = .next t ∧
      t.entry = { s.entry with queue := rest, search := some x } ∧ x.zone = q.zone ∧ x.purpose = q.purpose ∧
      x.start = s.now ∧ x.windowOpen = false ∧ x.candidates = candidates s q.purpose ∧ x.found = [] ∧
      x.waiters = q.waiters) ∧
  (∀ (x : Search) (s : State), s.power = .running → s.entry.search = some x → x.windowOpen = false →
    exec .challengeEnd s = .next { s with
      now := max s.now (x.start + ms 8),
      entry := { s.entry with search := some { x with windowOpen := true } } }) ∧
  ∀ (w : EnrollWindow) (s : State), s.power = .running → s.keys.window = some w →
    exec .enrollWindowExpiry s = .next { s with now := max s.now w.expiry, keys := { s.keys with window := none } }

/-- A search completes 48 ms after its start and no search is in flight any more. ENROLL: the lowest slot of the result
set that is an ACTIVE MASTER opens the window for 30 s and ENROLL_OPEN is answered OPENED with that slot; with none the
window stays and the answer is NO_MASTER. A touch or tailgate search fires its trigger for the first candidate found,
with the values captured; with none found nothing more happens. INSIDE_CHECK: each run that waits for it gets the
result. The moments on the clock are log entry 2's. -/
def Obligations.SearchesDeliverTheirResult : Prop :=
  (∀ (x : Search) (s : State), s.power = .running → s.entry.search = some x → x.windowOpen = true →
     x.purpose = .enroll →
       let now := max s.now (x.start + ms 48)
       (∀ i : Fin 8, i ∈ x.found → activeMaster (keyAt s i).stored = true →
         (∀ j : Fin 8, j ∈ x.found → activeMaster (keyAt s j).stored = true → i ≤ j) →
         ∃ t, exec .searchComplete s = .next t ∧ t.keys.window = some { expiry := now + ms 30000, slot := i } ∧
           t.entry.search = none ∧
           t.link.state = .replyReady { status := .ok, overrun := s.link.overrun, payload := [0, byte i.val] }) ∧
       ((∀ i : Fin 8, i ∈ x.found → activeMaster (keyAt s i).stored = false) →
         ∃ t, exec .searchComplete s = .next t ∧ t.keys.window = s.keys.window ∧ t.entry.search = none ∧
           t.link.state = .replyReady { status := .ok, overrun := s.link.overrun, payload := [1] })) ∧
  (∀ (x : Search) (u : Trigger) (c : AccessCommand) (s : State), s.power = .running → s.entry.search = some x →
     x.windowOpen = true → passiveOf x.purpose = some (u, c) →
       let s1 := { s with now := max s.now (x.start + ms 48), entry := { s.entry with search := none } }
       ((∀ k ∈ x.candidates, k.slot ∉ x.found) → exec .searchComplete s = .next (finishEvent s1)) ∧
       (∀ pre k post, x.candidates = pre ++ k :: post → k.slot ∈ x.found → (∀ j ∈ pre, j.slot ∉ x.found) →
         let r := fire { trigger := u,
                         carried := { origin := searchOrigin x.zone, role := k.role, slot := some k.slot,
                                      profile := some k.profile },
                         holdMark := false, request := none } s1
         exec .searchComplete s = .next (finishEvent (writeAccess k.slot c (resultOfAnswer r.2) r.1)))) ∧
  (∀ (x : Search) (s : State), s.power = .running → s.entry.search = some x → x.windowOpen = true →
     x.purpose = .insideCheck → ∃ y, exec .searchComplete s = .next (finishEvent y) ∧ y.entry.search = none ∧
       y.now = max s.now (x.start + ms 48) ∧
       (∀ t r, runAt s t = some r → r.searchWait = true → SearchWaiter.run t r.serial ∈ x.waiters →
         runAt y t = some { r with searchWait := false, searchResult := some (!x.found.isEmpty) }) ∧
       (∀ t r, runAt s t = some r → r.searchWait = false → runAt y t = some r))

/-! ### Latches -/

/-- A host's latch or child-lock request that passes its tests is taken, DEADLOCK lowered as R68 says, and answered as it
stood when taken. With the channel at rest the actuator takes the target, its fault clears, and: DONE when it is there
already; DRIVING, the drive started at once, with credit of at least 300 and no supply hold; HELD with POWER_HOLD
otherwise. Any requester's request meets what stands so: an equal running drive it joins, which keeps its time, and an
equal held request too, and nobody is told anything; an UNLOCK takes a crash drive over, which keeps its time; otherwise
the drive of the same actuator stops, is charged and told OVERRIDDEN, and so is the held request of the same actuator
removed (or a RELEASE held at TG). The actuator then takes the target and its fault clears; sensed there, the request is
MET or DONE at once; else it drives when no other actuator's drive runs, the credit has reached 300 and there is no supply
hold; else it takes the one waiting place: a request held there is told OVERRIDDEN and its actuator's target returns to its
sensed state (sensed INVALID: a free value, log entry 15); POWER_HOLD is raised for want of credit or under the supply
hold, and nothing for a busy channel alone. A host's latch request that fails a test is REFUSED with the reason and changes
nothing, but that DENIED(AJAR) raises AJAR_LOCK; one whose switch has not first qualified is answered NOT_READY; an unknown
aperture is refused. -/
def Obligations.LatchRequestsDriveOrAreRefused : Prop :=
  (∀ (b : Byte) (a : Aperture) (x : HeldTarget) (s : State), Serving s → Settled s → x ≠ .release →
     apertureOf b = some a → hostUnqualified s a x = false → denial (taken 3 s) a x = none →
     let y := lowered s a x
     let s1 := takeTarget a y (taken 3 s)
     let r := takeRequest a y .link [] (taken 3 s)
     exec (latchCommand b x) s = .next (replyLatch r.2 (finishEvent r.1)) ∧
     ((latchAt s a).drive = none → (latchAt s a).held = none →
       (sensedMeets s a y = true → exec (latchCommand b x) s = .next (replyResult .done [] s1)) ∧
       (sensedMeets s a y = false → 300 ≤ creditOf (latchAt s a) s.now → s.vehicle.supplyHold = false →
         exec (latchCommand b x) s = .next (replyResult .driving [] (beginDrive a y .link [] s1))) ∧
       (sensedMeets s a y = false → creditOf (latchAt s a) s.now < 300 ∨ s.vehicle.supplyHold = true →
         ∃ t, exec (latchCommand b x) s = .next t ∧ raised .powerHold t = true ∧
           (latchAt t a).held = some { target := y, requester := .link, tags := [] } ∧
           (latchAt t a).drive = none ∧
           t.link.state = .replyReady { status := .ok, overrun := s.link.overrun, payload := [4] }))) ∧
  -- what taking a request does, with a drive running or a request held or neither
  (∀ (a : Aperture) (y : HeldTarget) (req : Requester) (tags : List Tag) (s : State), y ≠ .release →
    let u := latchAt s a
    let r := takeRequest a y req tags s
    let v := latchAt r.1 a
    let mine := fun x : HeldTarget => actuatorOf x = actuatorOf y
    let told := fun (q : Requester) (g : List Tag) (o : Tag → OpOutcome) => ∀ t, q = .chain t → ∀ n ∈ g,
      { trigger := t, serial := n.serial, count := n.count, aperture := a, outcome := o n } ∈ r.1.mail
    -- it joins an equal drive, or takes a crash drive over
    (∀ d, u.drive = some d → d.target = y → d.requester = req →
      r = (takeTarget a y (setLatch a { u with drive := some { d with tags := d.tags ++ tags } } s), .driving)) ∧
    (∀ d, u.drive = some d → d.target = .unlocked → d.requester = .crash → y = .unlocked → req ≠ .crash →
      r = (takeTarget a y (setLatch a { u with drive := some { d with requester := req, tags } } s), .driving)) ∧
    ((∀ d, u.drive = some d → ¬(d.target = y ∧ d.requester = req) ∧
        ¬(d.target = .unlocked ∧ d.requester = .crash ∧ y = .unlocked)) →
      -- it joins an equal held request
      (∀ h, u.held = some h → h.target = y → h.requester = req →
        r = (takeTarget a y (setLatch a { u with held := some { h with tags := h.tags ++ tags } } s), .held)) ∧
      -- or it replaces what stands
      ((∀ h, u.held = some h → ¬(h.target = y ∧ h.requester = req)) →
        let free := ∀ d, u.drive = some d → mine d.target
        let charged := fun d : Drive => u.credit - (s.now - d.start) / 1000
        let credit := match u.drive with
          | none => creditOf u s.now
          | some d => if mine d.target then min 3000 (charged d) else u.credit
        let heldKept :=
          (∀ h, u.held = some h → ¬mine h.target → h.target ≠ .release → v.held = some h) ∧
          ((∀ h, u.held = some h → mine h.target ∨ h.target = .release) → v.held = none)
        let stopped := (free → v.drive = none) ∧ (¬free → v.drive = u.drive) ∧
          ∀ d, u.drive = some d → mine d.target → v.credit = charged d ∧ v.restFrom = s.now
        (∀ d, u.drive = some d → mine d.target → told d.requester d.tags fun _ => .overridden) ∧
        (∀ h, u.held = some h → mine h.target ∨ h.target = .release →
          told h.requester h.tags fun _ => .overridden) ∧
        (actuatorOf y = .latch → v.target = latchStateOf y ∧ v.fault = .none) ∧
        (∀ x, actuatorOf y = .child → apertureRear a = some x →
          (childAt r.1 x).target = decide (y = .on) ∧ (childAt r.1 x).jam = false) ∧
        (sensedMeets s a y = true → r.2 = .done ∧ stopped ∧ heldKept ∧
          told req tags fun g => if g.skipMet then .met else .done) ∧
        (sensedMeets s a y = false →
          (free → 300 ≤ credit → s.vehicle.supplyHold = false → r.2 = .driving ∧ heldKept ∧
            v.drive = some { target := y, requester := req, tags, start := s.now } ∧ v.credit = credit) ∧
          (¬free ∨ credit < 300 ∨ s.vehicle.supplyHold = true → r.2 = .held ∧ stopped ∧
            v.held = some { target := y, requester := req, tags } ∧
            (∀ h, u.held = some h → told h.requester h.tags fun _ => .overridden) ∧
            (∀ h, u.held = some h → actuatorOf h.target = .latch → actuatorOf y = .child → u.sensed ≠ .invalid →
              v.target = u.sensed) ∧
            (∀ h x, u.held = some h → actuatorOf h.target = .child → actuatorOf y = .latch →
              apertureRear a = some x → (childAt r.1 x).target = (childAt s x).sensed) ∧
            (credit < 300 ∨ s.vehicle.supplyHold = true → raised .powerHold r.1 = true) ∧
            (300 ≤ credit → s.vehicle.supplyHold = false → r.1.link = s.link)))))) ∧
  (∀ (a : Aperture) (y : HeldTarget) (s : State),
    (actuatorOf y = .latch →
      takeTarget a y s = setLatch a { latchAt s a with target := latchStateOf y, fault := .none } s ∧
      (sensedMeets s a y = true ↔ (latchAt s a).sensed = latchStateOf y)) ∧
    (∀ x, actuatorOf y = .child → apertureRear a = some x →
      takeTarget a y s = setChild x { childAt s x with target := decide (y = .on), jam := false } s ∧
      (sensedMeets s a y = true ↔ (childAt s x).sensed = decide (y = .on)))) ∧
  (∀ (b : Byte) (x : HeldTarget) (s : State), Serving s → Settled s →
     (apertureOf b = none → exec (latchCommand b x) s = .next (reply .badArgument [] (taken 3 s))) ∧
     (∀ a, apertureOf b = some a → hostUnqualified s a x = true →
       exec (latchCommand b x) s = .next (reply .notReady [] (taken 3 s))) ∧
     (∀ a r, apertureOf b = some a → hostUnqualified s a x = false → denial (taken 3 s) a x = some r →
       exec (latchCommand b x) s =
         .next (reply (.refused r) [] (if r = .ajar then raise .ajarLock (taken 3 s) else taken 3 s))))

/-- RELEASE at TG, in the order of its tests: while a pulse is given or the interval runs it is DONE at once; a TG not
sensed and meant UNLOCKED, and a speed not known 0 outside power mode OFF, refuse it; under the supply hold it becomes
TG's held request and raises POWER_HOLD, replacing what is held there, a RELEASE or a latch request, whose requester is
told OVERRIDDEN; otherwise a pulse of 200 ms starts, replacing a held RELEASE (a held latch request waits on: log entry
38). The pulse's end starts the interval of 1,000 ms; the interval's end clears it. The moments on the clock are log
entry 2's. -/
def Obligations.TailgateReleasesPulse : Prop :=
  (∀ (b : Byte) (s : State), Serving s → Settled s → apertureOf b = some .tg → pairQualified s .tg = true →
    let u := latchAt s .tg
    let pulsing := { taken 3 s with latches := { s.latches with
      pulse := some { ending := s.now + ms 200, requester := .link, tags := [] } } }
    let told := fun (h : Held) (x : State) => ∀ t, h.requester = .chain t → ∀ g ∈ h.tags,
      { trigger := t, serial := g.serial, count := g.count, aperture := .tg, outcome := .overridden } ∈ x.mail
    (s.latches.pulse ≠ none ∨ s.latches.interval ≠ none →
      exec (.apertureCommandTailgateRelease b) s = .next (replyResult .done [] (taken 3 s))) ∧
    (s.latches.pulse = none → s.latches.interval = none →
      (u.sensed ≠ .unlocked ∨ u.target ≠ .unlocked →
        exec (.apertureCommandTailgateRelease b) s = .next (reply (.refused .notUnlocked) [] (taken 3 s))) ∧
      (u.sensed = .unlocked → u.target = .unlocked →
        (speedZero (taken 3 s) = false → s.vehicle.powerMode ≠ .off →
          exec (.apertureCommandTailgateRelease b) s = .next (reply (.refused .speed) [] (taken 3 s))) ∧
        (speedZero (taken 3 s) = true ∨ s.vehicle.powerMode = .off →
          (s.vehicle.supplyHold = false → (∀ h, u.held = some h → h.target ≠ .release) →
            exec (.apertureCommandTailgateRelease b) s = .next (replyResult .driving [] pulsing)) ∧
          (∀ h, s.vehicle.supplyHold = false → u.held = some h → h.target = .release →
            ∃ x, exec (.apertureCommandTailgateRelease b) s = .next (replyResult .driving [] (finishEvent x)) ∧
              x.latches.pulse = some { ending := s.now + ms 200, requester := .link, tags := [] } ∧
              (latchAt x .tg).held = none ∧ told h x) ∧
          (s.vehicle.supplyHold = true → u.held = none → exec (.apertureCommandTailgateRelease b) s =
            .next (replyResult .held [] (raise .powerHold (setLatch .tg
              { u with held := some { target := .release, requester := .link, tags := [] } } (taken 3 s))))) ∧
          (∀ h, s.vehicle.supplyHold = true → u.held = some h →
            ∃ x, exec (.apertureCommandTailgateRelease b) s = .next (replyResult .held [] (finishEvent x)) ∧
              (latchAt x .tg).held = some { target := .release, requester := .link, tags := [] } ∧
              (latchAt x .tg).target = .unlocked ∧ x.latches.pulse = none ∧ raised .powerHold x = true ∧
              told h x))))) ∧
  (∀ (p : Pulse) (s : State), s.power = .running → s.latches.pulse = some p →
    ∃ x, exec .releasePulseEnd s = .next (finishEvent x) ∧ x.latches.pulse = none ∧
      x.now = max s.now p.ending ∧ x.latches.interval = some (x.now + ms 1000) ∧
      (∀ t, p.requester = .chain t → ∀ g ∈ p.tags,
        { trigger := t, serial := g.serial, count := g.count, aperture := .tg, outcome := .done } ∈ x.mail)) ∧
  (∀ (e : Nat) (s : State), s.power = .running → s.latches.interval = some e →
    exec .releaseIntervalEnd s =
      .next { s with now := max s.now e, latches := { s.latches with interval := none } })

/-- A held latch or child-lock request starts once the channel is free and the supply hold has ended, at the moment
the credit reaches 300: it passes the tests again and is driven, completes when its target is met, or is denied (its
target then stays as it set it: log entry 16); a DEADLOCK at TG, or with another aperture open, is lowered to LOCK; a
held RELEASE is judged anew; under the supply hold, or with the channel busy, nothing starts. Of the deferred requests
the first, in their order, whose conditions have ceased is taken, as an event of its own, and the others keep their
places; with none such nothing happens (one a command: log entry 47; a child-lock press: log entry 20). A chain's request
so taken that replaces the run's own earlier one leaves it untold: that OVERRIDDEN is discarded. That the start
moves the clock to the moment the credit reaches 300 is log entry 2's. That the supply hold raises no POWER_HOLD here, for
a request held until now for a busy channel alone among others, is the model's choice (log entry 43). -/
def Obligations.WaitingLatchRequestsStart : Prop :=
  (∀ (a : Aperture) (h : Held) (s : State), s.power = .running → Settled s → (latchAt s a).held = some h →
     h.target ≠ .release → (latchAt s a).drive = none → s.vehicle.supplyHold = false →
     let s1 := setLatch a { latchAt s a with held := none } (clockTo (creditReady (latchAt s a)) s)
     denial s1 a h.target = none → lowered s1 a h.target = h.target → sensedMeets s1 a h.target = false →
       exec (.latchHeldStart a) s = .next (beginDrive a h.target h.requester h.tags s1)) ∧
  (∀ (a : Aperture) (h : Held) (s : State), s.power = .running → (latchAt s a).held = some h →
     (s.vehicle.supplyHold = true → exec (.latchHeldStart a) s = .next (finishEvent s)) ∧
     (s.vehicle.supplyHold = false → h.target = .release → exec (.latchHeldStart a) s =
       .next (finishEvent (requestRelease h.requester h.tags (setLatch a { latchAt s a with held := none } s)).1)) ∧
     (s.vehicle.supplyHold = false → h.target ≠ .release → (latchAt s a).drive ≠ none →
       exec (.latchHeldStart a) s = .next (finishEvent s)) ∧
     (s.vehicle.supplyHold = false → h.target ≠ .release → (latchAt s a).drive = none →
       let s1 := setLatch a { latchAt s a with held := none } (clockTo (creditReady (latchAt s a)) s)
       let s2 := setLatch a { latchAt s1 a with target := .locked } s1
       (∀ r, denial s1 a h.target = some r →
         exec (.latchHeldStart a) s = .next (finishEvent (deny a h.requester h.tags r s1))) ∧
       (denial s1 a h.target = none → h.target ≠ .deadlocked ∨ (a ≠ .tg ∧ allClosed s = true) →
         sensedMeets s1 a h.target = true →
           exec (.latchHeldStart a) s = .next (finishEvent (tell h.requester h.tags a metOutcome s1))) ∧
       (denial s1 a h.target = none → h.target = .deadlocked → a = .tg ∨ allClosed s = false →
         ((latchAt s a).sensed = .locked →
           exec (.latchHeldStart a) s = .next (finishEvent (tell h.requester h.tags a metOutcome s2))) ∧
         ((latchAt s a).sensed ≠ .locked →
           exec (.latchHeldStart a) s = .next (finishEvent (beginDrive a .locked h.requester h.tags s2)))))) ∧
  (∀ s : State, s.power = .running →
     (∀ (pre post : List Deferred) (x : Deferred), s.latches.deferred = pre ++ x :: post →
       (∀ y ∈ pre, mayTake s y = false) → mayTake s x = true →
         exec .deferredRequestTake s =
           .next (finishEvent (takeNow x { s with latches := { s.latches with deferred := pre ++ post } }))) ∧
     ((∀ y ∈ s.latches.deferred, mayTake s y = false) → exec .deferredRequestTake s = .next s)) ∧
  (∀ (a : Aperture) (x : HeldTarget) (t : Trigger) (g : Tag) (s : State),
     let y := (requestLatch a x (.chain t) [g] s).1
     let own := fun n : Notice =>
       decide (n.trigger = t ∧ n.serial = g.serial ∧ n.count = g.count ∧ n.aperture = a ∧ n.outcome = .overridden)
     takeNow (.chain a x t g) s = { y with mail := y.mail.filter fun n => !own n }) ∧
  (∀ s : State,
     (∀ d, mayTake s (.pull d) = true ↔ s.store.scanDone = true ∧ pairQualified s (doorAperture d) = true) ∧
     (∀ f l, mayTake s (.rocker f l) = true ↔
       s.store.scanDone = true ∧ pairQualified s (doorAperture (frontDoorOf f)) = true) ∧
     (mayTake s .childButton = true ↔ s.store.scanDone = true ∧ pairQualified s .rl = true ∧
       pairQualified s .rr = true ∧ childQualified s .rl = true ∧ childQualified s .rr = true) ∧
     (mayTake s .release = true ↔ s.store.scanDone = true ∧ pairQualified s .tg = true) ∧
     (∀ a x t g, actuatorOf x = .latch → (mayTake s (.chain a x t g) = true ↔ pairQualified s a = true)) ∧
     (∀ r x t g, actuatorOf x = .child →
       (mayTake s (.chain (doorAperture (rearDoorOf r)) x t g) = true ↔ childQualified s r = true)) ∧
     (∀ t g, mayTake s (.chain .tg .release t g) = true ↔ pairQualified s .tg = true))

/-- A latch drive that reaches 300 ms, or a child-lock drive that reaches 400 ms, ends: fault JAM, LATCH_FAULT raised,
its time charged, the target kept, FAULT(JAM) for a chain's run. The credit of a resting channel gains 1 ms for each
whole 10 ms of rest and stops at 3000; a drive's credit stands. The moments on the clock are log entry 2's. -/
def Obligations.DrivesJamAtTheirLimitAndRestRefills : Prop :=
  (∀ (a : Aperture) (v : Drive) (s : State), s.power = .running → (latchAt s a).drive = some v →
     ∃ x, exec (.latchDriveLimit a) s = .next (finishEvent x) ∧ (latchAt x a).drive = none ∧
       (latchAt x a).target = (latchAt s a).target ∧ (latchAt x a).restFrom = x.now ∧
       (latchAt x a).credit = (latchAt s a).credit - (x.now - v.start) / 1000 ∧
       (actuatorOf v.target ≠ .child →
         x.now = max s.now (v.start + ms 300) ∧ (latchAt x a).fault = .jam ∧ raised .latchFault x = true) ∧
       (actuatorOf v.target = .child → x.now = max s.now (v.start + ms 400) ∧
         ∀ r, apertureRear a = some r → (childAt x r).jam = true ∧ (childAt x r).target = (childAt s r).target ∧
           raised .latchFault x = true) ∧
       (∀ t, v.requester = .chain t → ∀ g ∈ v.tags,
         { trigger := t, serial := g.serial, count := g.count, aperture := a, outcome := .fault .jam } ∈ x.mail)) ∧
  (∀ (u : LatchUnit) (now : Nat),
     (u.drive = none → creditOf u now = min 3000 (u.credit + (now - u.restFrom) / 10000)) ∧
     (∀ d, u.drive = some d → creditOf u now = u.credit))

/-! ### Windows -/

/-- A host's window request that passes its tests. On an IDLE window not already at its target the movement goes to
MARKING with requester LINK, a stored valid position marked invalid first, and the reply is OK, MOVING. On a RUNNING
window a movement of the same direction takes over and one of the other direction becomes the follow-on of a coast; in
MARKING it replaces the movement that waits, in the coast the follow-on; the requester it replaces is told OVERRIDDEN.
A WINDOW_TO does the same by the direction of its target; one at its target ends a RUNNING movement, DONE; in MARKING
and in the coast its direction is left to its start. A window request is refused with the first test's reason; TG has
no window; an unknown aperture, and a percent above 100, are BAD_ARGUMENT; the rest of a REVERSAL's time gives
REFUSED(REVERSAL); a WINDOW_TO without the travel is refused UNNORMALIZED (log entry 35). Nothing changes. A request
that is taken clears the last fault, as a follow-on too (log entry 52). -/
def Obligations.WindowRequestsMoveOrAreRefused : Prop :=
  (∀ (b : Byte) (a : Aperture) (d : Door) (s : State), Serving s → Settled s → apertureOf b = some a →
     apertureDoor a = some d → (windowAt s d).phase = .idle → (windowAt s d).followOn = none →
       (∀ dir, moveDenial s.latches.crashHold (windowAt s d) dir .toEnd = none →
         exec (match dir with
           | .opening => .apertureCommandWindowOpen b
           | .closing => .apertureCommandWindowClose b) s =
           .next (replyResult .moving [] (beginMarking d (plainMove dir .toEnd .link []) (taken 3 s)))) ∧
       (∀ (p : Byte) (l : Nat), p.toNat ≤ 100 → (windowAt s d).record.travel = some l →
         let m := positionMove (windowAt s d) (p.toNat * l / 100) .link []
         moveDenial s.latches.crashHold (windowAt s d) m.dir .toPosition = none →
           (atTarget (windowAt s d) m = false → exec (.apertureCommandWindowTo b p) s =
             .next (replyResult .moving [] (beginMarking d m (taken 3 s)))) ∧
           (atTarget (windowAt s d) m = true →
             exec (.apertureCommandWindowTo b p) s = .next (replyResult .done [] (taken 3 s))))) ∧
  (∀ (b : Byte) (a : Aperture) (d : Door) (dir : Direction) (s : State), Serving s → apertureOf b = some a →
     apertureDoor a = some d → reversing (windowAt s d) = false →
     moveDenial s.latches.crashHold (windowAt s d) dir .toEnd = none →
       let m := plainMove dir .toEnd .link []
       let w := { windowAt s d with lastFault := .none }
       (∀ x, w.phase = .running → w.motion = some x →
         exec (match dir with
           | .opening => .apertureCommandWindowOpen b
           | .closing => .apertureCommandWindowClose b) s = .next (replyResult .moving [] (finishEvent
             (setWindow d (if x.move.dir = dir then takeOver m w else { coast s.now w with followOn := some m })
               (tellMotion d .overridden (taken 3 s)))))) ∧
       (w.phase = .marking →
         exec (match dir with
           | .opening => .apertureCommandWindowOpen b
           | .closing => .apertureCommandWindowClose b) s = .next (replyResult .moving [] (finishEvent
             (setWindow d { w with motion := some (freshMotion m) } (tellMotion d .overridden (taken 3 s)))))) ∧
       (w.phase = .coasting →
         exec (match dir with
           | .opening => .apertureCommandWindowOpen b
           | .closing => .apertureCommandWindowClose b) s = .next (replyResult .moving [] (finishEvent
             (setWindow d { w with followOn := some m } (removeFollowOn d (some .overridden) (taken 3 s))))))) ∧
  (∀ (b p : Byte) (l : Nat) (a : Aperture) (d : Door) (s : State), Serving s → apertureOf b = some a →
     apertureDoor a = some d → reversing (windowAt s d) = false → p.toNat ≤ 100 →
     (windowAt s d).record.travel = some l →
       let m := positionMove (windowAt s d) (p.toNat * l / 100) .link []
       let w := { windowAt s d with lastFault := .none }
       moveDenial s.latches.crashHold (windowAt s d) m.dir .toPosition = none →
       (∀ x, w.phase = .running → w.motion = some x →
         let s1 := tellMotion d .overridden (taken 3 s)
         (atTarget w m = true → exec (.apertureCommandWindowTo b p) s = .next (replyResult .done [] (finishEvent
           (setWindow d (coast s.now (takeOver { m with dir := x.move.dir } w)) s1)))) ∧
         (atTarget w m = false → exec (.apertureCommandWindowTo b p) s = .next (replyResult .moving [] (finishEvent
           (setWindow d (if m.dir = x.move.dir then takeOver m w else { coast s.now w with followOn := some m })
             s1))))) ∧
       (w.phase = .marking → exec (.apertureCommandWindowTo b p) s = .next (replyResult .moving [] (finishEvent
         (setWindow d { w with motion := some (freshMotion { m with fixed := false }) }
           (tellMotion d .overridden (taken 3 s)))))) ∧
       (w.phase = .coasting → exec (.apertureCommandWindowTo b p) s = .next (replyResult .moving [] (finishEvent
         (setWindow d { w with followOn := some { m with fixed := false } }
           (removeFollowOn d (some .overridden) (taken 3 s))))))) ∧
  (∀ (b : Byte) (s : State), Serving s → Settled s →
     let answered := fun (c : Instr) (st : Status) => exec c s = .next (reply st [] (taken 3 s))
     (apertureOf b = none → answered (.apertureCommandWindowOpen b) .badArgument ∧
       answered (.apertureCommandWindowClose b) .badArgument ∧ answered (.windowStop b) .badArgument ∧
       ∀ p, answered (.apertureCommandWindowTo b p) .badArgument) ∧
     (∀ p : Byte, 100 < p.toNat → answered (.apertureCommandWindowTo b p) .badArgument) ∧
     (apertureOf b = some .tg → answered (.apertureCommandWindowOpen b) (.refused .notFitted) ∧
       answered (.apertureCommandWindowClose b) (.refused .notFitted) ∧
       answered (.windowStop b) (.refused .notFitted) ∧
       ∀ p : Byte, p.toNat ≤ 100 → answered (.apertureCommandWindowTo b p) (.refused .notFitted)) ∧
     (∀ a d, apertureOf b = some a → apertureDoor a = some d →
       let w := windowAt s d
       (reversing w = true → answered (.apertureCommandWindowOpen b) (.refused .reversal) ∧
         answered (.apertureCommandWindowClose b) (.refused .reversal) ∧
         answered (.windowStop b) (.refused .reversal) ∧
         ∀ p : Byte, p.toNat ≤ 100 → answered (.apertureCommandWindowTo b p) (.refused .reversal)) ∧
       (reversing w = false →
         (∀ r, moveDenial s.latches.crashHold w .opening .toEnd = some r →
           answered (.apertureCommandWindowOpen b) (.refused r)) ∧
         (∀ r, moveDenial s.latches.crashHold w .closing .toEnd = some r →
           answered (.apertureCommandWindowClose b) (.refused r)) ∧
         (∀ p : Byte, p.toNat ≤ 100 →
           (w.record.travel = none → answered (.apertureCommandWindowTo b p) (.refused .unnormalized)) ∧
           ∀ l r, w.record.travel = some l →
             moveDenial s.latches.crashHold w (positionMove w (p.toNat * l / 100) .link []).dir .toPosition = some r →
               answered (.apertureCommandWindowTo b p) (.refused r)))))

/-- No window makes an automatic closing movement unless it is NORMALIZED, its auto-close is on and its pinch count is
below 3, and none closes under the crash hold. -/
def Obligations.AutomaticClosingIsPermittedRarely : Prop :=
  ∀ (hold : Bool) (w : Window) (dir : Direction) (mode : MoveMode), mode ≠ .reversal →
    moveDenial hold w dir mode = none → dir = .closing →
      hold = false ∧ (mode ≠ .held → normalization w = .normalized ∧ w.record.autoClose = true ∧ w.pinchCount < 3)

/-- WINDOW_STOP, WINDOW_SETUP and WINDOW_RELEARN. A stop of a RUNNING window starts its coast of 40 ms; in MARKING it
brings the window to IDLE with its closing write; in the coast it removes the follow-on; the requester is told
OVERRIDDEN; with nothing to stop the result is IDLE. Setup and relearning are written at once on an IDLE window and wait
for the movement's end otherwise. The moments on the clock are log entry 2's. -/
def Obligations.WindowStopSetupAndRelearn : Prop :=
  ∀ (b : Byte) (d : Door) (s : State), Serving s → doorOf b = some d →
    let told := fun (m : Movement) (x : State) => ∀ t, m.requester = .chain t → ∀ g ∈ m.tags,
      { trigger := t, serial := g.serial, count := g.count, aperture := doorAperture d, outcome := .overridden } ∈
        x.mail
    (∀ m, (windowAt s d).phase = .running → (windowAt s d).motion = some m → reversing (windowAt s d) = false →
      ∃ x, exec (.windowStop b) s = .next (replyResult .stopped [] (finishEvent x)) ∧
        (windowAt x d).phase = .coasting ∧ (windowAt x d).coastEnd = s.now + ms 40 ∧
        (windowAt x d).followOn = none ∧ (windowAt x d).record = (windowAt s d).record ∧ told m.move x) ∧
    (∀ m, (windowAt s d).phase = .marking → (windowAt s d).motion = some m → reversing (windowAt s d) = false →
      ∃ x, exec (.windowStop b) s = .next (replyResult .stopped [] (finishEvent x)) ∧
        (windowAt x d).phase = .idle ∧ (windowAt x d).motion = none ∧ (windowAt x d).followOn = none ∧
        (windowAt x d).record =
          { (applyPending (windowAt s d)).record with valid := (windowAt s d).known } ∧
        (∃ e ∈ x.store.queue, e.id = .window d ∧ e.content = .window (windowAt x d).record) ∧ told m.move x) ∧
    (∀ m, (windowAt s d).phase = .coasting → (windowAt s d).followOn = some m → reversing (windowAt s d) = false →
      exec (.windowStop b) s = .next (replyResult .stopped [] (finishEvent
        (tellMove d m .overridden (setWindow d { windowAt s d with followOn := none } (taken 3 s)))))) ∧
    ((windowAt s d).phase = .coasting → (windowAt s d).followOn = none →
      exec (.windowStop b) s = .next (replyResult .idle [] (taken 3 s))) ∧
    ((windowAt s d).phase = .idle → (windowAt s d).followOn = none → (windowAt s d).motion = none →
      exec (.windowStop b) s = .next (replyResult .idle [] (taken 3 s))) ∧
    (∀ (n : Byte) (y : Byte) (auto : Bool), boolOf y = some auto →
      ((windowAt s d).phase ≠ .idle → exec (.windowSetup b n y) s = .next (replyResult .deferred []
        (setWindow d { windowAt s d with pendingSetup := some (min 15 n.toNat, auto) } (taken 3 s)))) ∧
      ((windowAt s d).phase = .idle → (windowAt s d).record.level = min 15 n.toNat →
        (windowAt s d).record.autoClose = auto →
          exec (.windowSetup b n y) s = .next (replyResult .applied [] (taken 3 s))) ∧
      ((windowAt s d).phase = .idle →
        ¬((windowAt s d).record.level = min 15 n.toNat ∧ (windowAt s d).record.autoClose = auto) →
        ∃ t, exec (.windowSetup b n y) s = .next t ∧ (windowAt t d).record =
            { (windowAt s d).record with level := min 15 n.toNat, autoClose := auto } ∧
          t.link.state = .working ∧ Queued t (.window d) (.window (windowAt t d).record) .applied)) ∧
    ((windowAt s d).phase ≠ .idle → exec (.windowRelearn b) s = .next (replyResult .deferred []
      (setWindow d { windowAt s d with pendingRelearn := true } (taken 1 s)))) ∧
    ((windowAt s d).phase = .idle → ∃ t, exec (.windowRelearn b) s = .next t ∧
      (windowAt t d).record =
        { (windowAt s d).record with travel := none, refs := Vector.replicate 16 none } ∧
      t.link.state = .working ∧ Queued t (.window d) (.window (windowAt t d).record) .applied)

/-- A movement that waits in MARKING with nothing holding its motor back and its tests passing starts: RUNNING, its
direction fixed, pulse count, score and zone sums at 0; held back it waits; one that fails its tests now, or whose
target is reached, ends at rest with its outcome. At the end of a coast pending changes are applied first. A follow-on
goes to MARKING or starts at once, a REVERSAL with its target fixed: its amount added to the position, a free value when
the position was lost in the coast (log entry 18), or the bound 4024 without an amount. A start clears no last fault
(log entry 52). Without one the window is IDLE, its motion record
gone, and its closing write carries the position as valid exactly when it is known. The moments on the clock are log
entry 2's. -/
def Obligations.MotorsStartAndCoastsEnd : Prop :=
  (∀ (d : Door) (m : Motion) (s : State), s.power = .running → Settled s → (windowAt s d).phase = .marking →
     (windowAt s d).motion = some m → startHeldBack s d = false →
     let m' := fixDirection (windowAt s d) m.move
     moveDenial s.latches.crashHold (windowAt s d) m'.dir m'.mode = none →
     (m.move.fixed = true ∨ atTarget (windowAt s d) m.move = false) →
       exec (.motorStart d) s = .next (setWindow d { windowAt s d with
         phase := .running, followOn := none,
         motion := some { move := m', pulses := 0, started := some s.now, stopped := none, score := 0,
                          zones := Vector.replicate 16 (0, 0) } } s)) ∧
  (∀ (d : Door) (m : Motion) (s : State), s.power = .running → (windowAt s d).phase = .marking →
     (windowAt s d).motion = some m →
     let m' := fixDirection (windowAt s d) m.move
     (startHeldBack s d = true → exec (.motorStart d) s = .next (finishEvent s)) ∧
     (∀ r, startHeldBack s d = false → moveDenial s.latches.crashHold (windowAt s d) m'.dir m'.mode = some r →
       exec (.motorStart d) s = .next (finishEvent (toIdle d (tellMove d m.move (.denied r) s)))) ∧
     (startHeldBack s d = false → moveDenial s.latches.crashHold (windowAt s d) m'.dir m'.mode = none →
       m.move.fixed = false → atTarget (windowAt s d) m.move = true →
         exec (.motorStart d) s = .next (finishEvent (toIdle d (tellMove d m.move .done s))))) ∧
  (∀ (d : Door) (m : Movement) (s : State), s.power = .running → (windowAt s d).phase = .coasting →
     (windowAt s d).followOn = some m →
     let w := applyPending (windowAt s d)
     let s1 := setWindow d w (clockTo (windowAt s d).coastEnd s)
     let m' := fixReversal d w s1.now m
     (m.mode ≠ .reversal → m' = m) ∧
     (m.mode = .reversal → m.amount = none → m' = { m with target := some 4024 }) ∧
     (∀ n, m.mode = .reversal → m.amount = some n → w.known = true →
       m' = { m with target := some (w.record.position + n) }) ∧
     (∀ n, m.mode = .reversal → m.amount = some n → w.known = false →
       m' = { m with target := some (Config.lostTarget (apertureCode (doorAperture d)) s1.now) }) ∧
     (startHeldBack s1 d = true → exec (.coastEnd d) s = .next (finishEvent (setWindow d { w with
       phase := .marking, followOn := none, motion := some (freshMotion m') } s1))) ∧
     (startHeldBack s1 d = false → exec (.coastEnd d) s = .next (finishEvent (startMotor d m' s1)))) ∧
  (∀ (d : Door) (s : State), s.power = .running → Settled s → (windowAt s d).phase = .coasting →
     (windowAt s d).followOn = none → ∃ t, exec (.coastEnd d) s = .next t ∧ (windowAt t d).phase = .idle ∧
       (windowAt t d).motion = none ∧ (windowAt t d).record.valid = (windowAt s d).known ∧
       (windowAt t d).record.position = (windowAt s d).record.position ∧
       (windowAt t d).pendingSetup = none ∧ (windowAt t d).pendingRelearn = false ∧
       (∀ n auto, (windowAt s d).pendingSetup = some (n, auto) →
         (windowAt t d).record.level = n ∧ (windowAt t d).record.autoClose = auto) ∧
       ((windowAt s d).pendingRelearn = true → (windowAt t d).record.travel = none) ∧
       (∃ e ∈ t.store.queue, e.id = .window d ∧ e.content = .window (windowAt t d).record) ∧
       t.now = max s.now (windowAt s d).coastEnd)

/-- HALL_EDGE. RUNNING with the position known, an accepted edge that stays in the bound and is not evaluated moves the
position by one step and counts one pulse; at the target it ends the movement. One that would leave the bound loses the
position and ends the movement POSITION_LOST; with the position unknown only the pulse is counted. In the coast an edge
moves the position and nothing more; one that would leave the bound loses the position and raises WINDOW_FAULT. An edge
within 150 µs of the last is rejected; in IDLE and MARKING all are ignored. The moments on the clock are log entry
2's. -/
def Obligations.EdgesMoveThePosition : Prop :=
  (∀ (d : Door) (gap : Nat) (s : State), s.power = .running → Settled s →
    (windowAt s d).phase = .idle ∨ (windowAt s d).phase = .marking → exec (.hallEdge d gap) s = .next s) ∧
  ∀ (d : Door) (gap : Nat) (m : Motion) (s : State), s.power = .running → Settled s →
    (windowAt s d).motion = some m →
    let w := windowAt s d
    let s1 := clockTo (edgeOrigin w m + gap) s
    let m1 := { m with pulses := m.pulses + 1 }
    let p1 := match m.move.dir with
      | .closing => w.record.position - 1
      | .opening => w.record.position + 1
    let w1 := { w with lastEdge := some s1.now, motion := some m1, record := { w.record with position := p1 } }
    let spaced := ∀ e, w.lastEdge = some e → 150 ≤ s1.now - e
    (spaced → w.phase = .running → w.known = true → edgeLeavesBound w m.move.dir = false →
      evaluated w1 m1 = false →
        (targetReached w1 m.move = false → exec (.hallEdge d gap) s = .next (setWindow d w1 s1)) ∧
        (targetReached w1 m.move = true → ∃ x, exec (.hallEdge d gap) s = .next (finishEvent x) ∧
          (windowAt x d).phase = .coasting ∧ (windowAt x d).record = w1.record ∧ (windowAt x d).known = true ∧
          (windowAt x d).coastEnd = s1.now + ms 40)) ∧
    (spaced → w.phase = .running → w.known = true → edgeLeavesBound w m.move.dir = true →
      ∃ x, exec (.hallEdge d gap) s = .next (finishEvent x) ∧ (windowAt x d).phase = .coasting ∧
        (windowAt x d).known = false ∧ (windowAt x d).lastFault = .positionLost ∧
        raised .windowFault x = true ∧ (windowAt x d).record = w.record) ∧
    (spaced → w.phase = .running → w.known = false →
      exec (.hallEdge d gap) s = .next (setWindow d { w with lastEdge := some s1.now, motion := some m1 } s1)) ∧
    (spaced → w.phase = .coasting → w.known = true → edgeLeavesBound w m.move.dir = false →
      exec (.hallEdge d gap) s = .next (setWindow d { w1 with motion := some m } s1)) ∧
    (spaced → w.phase = .coasting → w.known = false →
      exec (.hallEdge d gap) s = .next (setWindow d { w with lastEdge := some s1.now } s1)) ∧
    (spaced → w.phase = .coasting → w.known = true → edgeLeavesBound w m.move.dir = true →
      exec (.hallEdge d gap) s = .next (raise .windowFault (setWindow d
        { w with lastEdge := some s1.now, known := false, lastFault := .positionLost } s1))) ∧
    (∀ e, w.phase = .running ∨ w.phase = .coasting → w.lastEdge = some e → s1.now - e < 150 →
      exec (.hallEdge d gap) s = .next s1)

/-- An evaluated edge: stages 1 to 5 give the new score and add the edge to its zone; below 96 and short of a target the
window runs on; below 96 at its target the movement ends DONE, the zone sums kept; at 96 or more a pinch is decided: the
motor stops, the requester is told FAULT(PINCH), the count goes up, PINCH is raised, and with the count below 3 before and
the position below the travel a REVERSAL becomes the follow-on, opening by 120 steps or what the travel leaves, in place of
any other, which is told OVERRIDDEN; otherwise none is made. The moments on the clock are log entry 2's. -/
def Obligations.EvaluatedEdgesScoreAndPinch : Prop :=
  ∀ (d : Door) (gap l : Nat) (m : Motion) (s : State), s.power = .running → Settled s →
    (windowAt s d).phase = .running → (windowAt s d).motion = some m → (windowAt s d).known = true →
    m.move.dir = .closing → (windowAt s d).record.travel = some l → 7 ≤ (windowAt s d).record.position →
    12 ≤ m.pulses →
    let w := windowAt s d
    let s1 := clockTo (edgeOrigin w m + gap) s
    (∀ e, w.lastEdge = some e → 150 ≤ s1.now - e) →
    let p := w.record.position - 1
    let tn := normalizedPeriod (min 65535 (s1.now - edgeOrigin w m)) s.vehicle.supply
    let z := zoneOf l p
    let score := nextScore m.score (excess (look w.record.refs z) tn) (8 + 4 * w.record.level)
    let m1 := { m with pulses := m.pulses + 1, score,
                       zones := put m.zones z ((look m.zones z).1 + tn, (look m.zones z).2 + 1) }
    let w1 := { w with lastEdge := some s1.now, motion := some m1, record := { w.record with position := p } }
    (score < 96 → targetReached w1 m.move = false → exec (.hallEdge d gap) s = .next (setWindow d w1 s1)) ∧
    let told := fun (v : Movement) (o : OpOutcome) (x : State) => ∀ t, v.requester = .chain t → ∀ g ∈ v.tags,
      { trigger := t, serial := g.serial, count := g.count, aperture := doorAperture d, outcome := o } ∈ x.mail
    let reversal : Movement :=
      { dir := .opening, fixed := true, mode := .reversal, target := none,
        amount := some (min 120 (l - p)), requester := .pinch, tags := [] }
    let ends := fun x : State => exec (.hallEdge d gap) s = .next (finishEvent x) ∧
      (windowAt x d).phase = .coasting ∧ (windowAt x d).coastEnd = s1.now + ms 40 ∧
      (windowAt x d).record = { w.record with position := p } ∧ (windowAt x d).known = true ∧
      (windowAt x d).motion = some { m1 with stopped := some s1.now, score := 0 }
    (score < 96 → targetReached w1 m.move = true → ∃ x, ends x ∧ (windowAt x d).pinchCount = w.pinchCount ∧
      (windowAt x d).followOn = w.followOn ∧ told m.move .done x) ∧
    (96 ≤ score → ∃ x, ends x ∧ (windowAt x d).pinchCount = min 3 (w.pinchCount + 1) ∧
      raised .pinch x = true ∧ told m.move (.fault .pinch) x ∧
      (w.pinchCount < 3 → p < l →
        (windowAt x d).followOn = some reversal ∧
        ∀ v, w.followOn = some v → told v .overridden x) ∧
      (3 ≤ w.pinchCount ∨ l ≤ p → (windowAt x d).followOn = w.followOn))

/-- Stage 1: the normalized period. -/
def Obligations.PeriodsAreNormalizedTo13500 : Prop :=
  ∀ (t mv : Nat), 150 ≤ t → t ≤ 65535 →
    normalizedPeriod t mv = min 65535 (t * (max 9000 (min 16000 mv)) / 13500) ∧ 100 ≤ normalizedPeriod t mv

/-- Stage 2: sixteen zones of the travel, zone 0 nearest the closed end. -/
def Obligations.ZonesDivideTheTravel : Prop :=
  ∀ (l p : Nat), (zoneOf l p).val = min 15 (p * 16 / (l + 1)) ∧ (16 ≤ l + 1 → (zoneOf l l).val = 15) ∧
    (l < p → 16 ≤ l + 1 → (zoneOf l p).val = 15)

/-- Stage 3: the excess over the reference, 0 without a reference or at a period not above it. -/
def Obligations.ExcessOverTheReference : Prop :=
  ∀ (r tn : Nat), excess none tn = 0 ∧ (r < tn → excess (some r) tn = min 255 ((tn - r) * 256 / r)) ∧
    (tn ≤ r → excess (some r) tn = 0)

/-- Stages 4 and 5: the score lies within 0..1023, rises by the excess over the threshold and is halved otherwise; one
edge pinches from 0 exactly when its excess reaches the threshold plus 96. -/
def Obligations.ScoresRiseAndForget : Prop :=
  ∀ (score e level : Nat), score ≤ 1023 → e ≤ 255 → level ≤ 15 →
    nextScore score e (8 + 4 * level) ≤ 1023 ∧
    (8 + 4 * level < e → nextScore score e (8 + 4 * level) = min 1023 (score + (e - (8 + 4 * level)))) ∧
    (e ≤ 8 + 4 * level → nextScore score e (8 + 4 * level) = score / 2) ∧
    (96 ≤ nextScore 0 e (8 + 4 * level) ↔ 8 + 4 * level + 96 ≤ e)

/-- A stall of a RUNNING window. Closing with the position known at 13 or more it is a pinch, followed by a REVERSAL
while the count was below 3; closing otherwise it is the top stop, where the reference of every zone with a count
becomes the zone's mean or moves an eighth of the way to it, rounded toward zero, within 150..65,535. Opening it is the bottom stop near Lt and a fault
STALL well short of it or with the position unknown. NO_PULSES and RUN_LIMIT end the movement as faults. In every case
the motor stops. The moments on the clock are log entry 2's. -/
def Obligations.StallsAndFaultsEndMovements : Prop :=
  ∀ (d : Door) (m : Motion) (s : State), s.power = .running → (windowAt s d).phase = .running →
    (windowAt s d).motion = some m →
    let w := windowAt s d
    (∀ e, 1 ≤ m.pulses → w.lastEdge = some e → ∃ x, exec (.stallTimeout d) s = .next (finishEvent x) ∧
      (windowAt x d).phase = .coasting ∧ x.now = max s.now (e + ms 60) ∧
      (m.move.dir = .closing → w.known = true → 13 ≤ w.record.position →
        (windowAt x d).pinchCount = min 3 (w.pinchCount + 1) ∧ raised .pinch x = true ∧
        (windowAt x d).record = w.record ∧
        (w.pinchCount < 3 → w.record.travel = none → ∃ f, (windowAt x d).followOn = some f ∧ f.mode = .reversal ∧
          f.dir = .opening ∧ f.amount = none) ∧
        (∀ l, w.pinchCount < 3 → w.record.travel = some l → w.record.position < l →
          ∃ f, (windowAt x d).followOn = some f ∧ f.mode = .reversal ∧ f.dir = .opening ∧
            f.amount = some (min 120 (l - w.record.position))) ∧
        (3 ≤ w.pinchCount → (windowAt x d).followOn = w.followOn)) ∧
      (m.move.dir = .closing → (w.known = false ∨ w.record.position ≤ 12) →
        (windowAt x d).record.position = 0 ∧ (windowAt x d).known = true ∧ (windowAt x d).pinchCount = 0 ∧
        (windowAt x d).record = { w.record with position := 0, refs := (windowAt x d).record.refs } ∧
        (∀ z, let now := look (windowAt x d).record.refs z
          let old := look w.record.refs z
          let count := (look m.zones z).2
          let mean := (look m.zones z).1 / count
          (count = 0 → now = old) ∧ (0 < count → old = none → now = some (max 150 (min 65535 mean))) ∧
          (∀ y, 0 < count → old = some y →
            (y ≤ mean → now = some (max 150 (min 65535 (y + (mean - y) / 8)))) ∧
            (mean < y → now = some (max 150 (min 65535 (y - (y - mean) / 8)))))) ∧
        (∀ t, m.move.requester = .chain t → ∀ g ∈ m.move.tags,
          { trigger := t, serial := g.serial, count := g.count, aperture := doorAperture d, outcome := .done } ∈
            x.mail)) ∧
      (∀ l, m.move.dir = .opening → w.known = true → w.record.travel = some l → l ≤ w.record.position + 12 →
        (windowAt x d).record = { w.record with position := l }) ∧
      (∀ l, m.move.dir = .opening → w.known = true → w.record.travel = some l → w.record.position + 12 < l →
        (windowAt x d).lastFault = .stall ∧ raised .windowFault x = true) ∧
      (m.move.dir = .opening → w.known = false → (windowAt x d).lastFault = .stall ∧ raised .windowFault x = true ∧
        (windowAt x d).record = w.record ∧ (windowAt x d).known = false) ∧
      (m.move.dir = .opening → w.known = true → w.record.travel = none →
        (200 ≤ w.record.position → w.record.position ≤ 4000 →
          (windowAt x d).record.travel = some w.record.position) ∧
        (w.record.position < 200 ∨ 4000 < w.record.position →
          (windowAt x d).record.travel = none ∧ raised .learnFail x = true))) ∧
    (∀ e, m.pulses = 0 → m.started = some e → ∃ x, exec (.noPulses d) s = .next (finishEvent x) ∧
      (windowAt x d).phase = .coasting ∧ (windowAt x d).lastFault = .noPulses ∧ raised .windowFault x = true ∧
      x.now = max s.now (e + ms 300) ∧ (windowAt x d).record = w.record ∧ (windowAt x d).known = w.known) ∧
    (∀ e, m.started = some e → ∃ x, exec (.runLimit d) s = .next (finishEvent x) ∧
      (windowAt x d).phase = .coasting ∧ (windowAt x d).lastFault = .runLimit ∧ raised .windowFault x = true ∧
      x.now = max s.now (e + ms 8000) ∧ (windowAt x d).record = w.record ∧ (windowAt x d).known = w.known)

/-! ### Chains -/

/-- STEP_WRITE and TRIGGER_WRITE replace the working copy at once and queue its write, the reply waiting for it; a
TRIGGER_WRITE clears its trigger's continue point; CRASH keeps priority 3 and never joins a cancel set. CHAINS_DEFAULT
loads the default set at once, clears every continue point, keeps runs and refire records, and queues the first of its
78 writes. -/
def Obligations.ChainTablesAreWritten : Prop :=
  ((∀ (bi ba bx bg br bf bn : Byte) (i n : Fin 64) (a : Action) (x : BitVec 6) (g : Option Nat) (r : Role)
       (f : BitVec 5) (s : State), Serving s → stepIndexOf bi = some i → actionOf ba = some a →
       maskOf 6 bx = some x → argumentOf a bg = some g → roleOf br = some r → maskOf 5 bf = some f →
       stepIndexOf bn = some n →
         let st : Step := { action := a, apertures := setOf a x, argument := g, minRole := r, flags := f, next := n }
         ∃ t, exec (.stepWrite bi ba bx bg br bf bn) s = .next t ∧ stepAt t i = .step st ∧
           (∀ j, j ≠ i → stepAt t j = stepAt s j) ∧ t.engine.runs = s.engine.runs ∧
           t.engine.continuePoints = s.engine.continuePoints ∧ t.link.state = .working ∧
           Queued t (.step i) (.step st) .replyOk) ∧
   (∀ (bi bs bp bg bh : Byte) (c : BitVec 16) (u : Trigger) (start : Option (Fin 64)) (g : Staging) (h : Bool)
       (x : BitVec 14) (s : State), Serving s → triggerOfByte bi = some u → startOf bs = some start →
       stagingOf bg = some g → boolOf bh = some h → maskOf 14 c = some x →
         ∃ t, exec (.triggerWrite bi bs bp bg bh c) s = .next t ∧ (triggerAt t u).start = start ∧
           (triggerAt t u).staging = g ∧ (triggerAt t u).holdToRun = h ∧
           (triggerAt t u).cancelSet.getLsbD 0 = false ∧
           (∀ k, 0 < k → (triggerAt t u).cancelSet.getLsbD k = x.getLsbD k) ∧
           (u = .crash → (triggerAt t u).priority = 3) ∧
           (u ≠ .crash → (triggerAt t u).priority = max 1 (min 2 bp.toNat)) ∧ continueAt t u = none ∧
           (∀ v, v ≠ u → triggerAt t v = triggerAt s v ∧ continueAt t v = continueAt s v) ∧
           t.engine.runs = s.engine.runs ∧ t.link.state = .working ∧
           Queued t (.trigger u) (.trigger (triggerAt t u)) .replyOk)) ∧
  (∀ s : State, Serving s → ∃ t, exec .chainsDefault s = .next t ∧ (∀ i, stepAt t i = .step (defaultStep i)) ∧
     (∀ u, triggerAt t u = defaultTrigger u ∧ continueAt t u = none ∧ runAt t u = runAt s u ∧
       refireAt t u = refireAt s u) ∧
     t.link.state = .working ∧ t.engine.defaulting = some 0 ∧
     Queued t (.step 0) (.step (defaultStep 0)) .chainsDefault)

/-- TRIGGER_FIRE: BUSY while a LINK_FIRE run exists; otherwise LINK_FIRE is fired with role SYSTEM, no slot, the
request's origin, priority within 1..2 and start, under case 6 of R131 (what that case does: FiringsAreDecidedByTheRun;
that it is the case R130 means: log entry 25); its run starts at the request's step unless a continue point stands; the
reply is OK with the index. -/
def Obligations.TriggerFireMakesALinkRun : Prop :=
  ∀ (bs bp bo : Byte) (i : Fin 64) (o : Aperture) (s : State), Serving s → stepIndexOf bs = some i →
    originOf s bo = some o →
    ((runAt s .linkFire).isSome = true → exec (.triggerFire bs bp bo) s = .next (reply .busy [] (taken 3 s))) ∧
    (runAt s .linkFire = none → exec (.triggerFire bs bp bo) s = .next (reply .ok [13] (finishEvent
      (fire { trigger := .linkFire, carried := { origin := o, role := .system, slot := none, profile := none },
              holdMark := false, request := some (i, max 1 (min 2 bp.toNat)) } (taken 3 s)).1))) ∧
    (runAt s .linkFire = none → ∃ x r, exec (.triggerFire bs bp bo) s = .next (reply .ok [13] (finishEvent x)) ∧
      runAt x .linkFire = some r ∧ r.role = .system ∧ r.slot = none ∧ r.origin = o ∧
      r.priority = max 1 (min 2 bp.toNat) ∧ r.steps = 0 ∧ r.step = none ∧
      (continueAt s .linkFire = none → r.stepIndex = i) ∧
      (∀ c, continueAt s .linkFire = some c → r.stepIndex = c.step) ∧ continueAt x .linkFire = none)

/-- A firing, decided by its start and its run: ignored when disabled; refused with TRIGGER_REFUSED when parked; merged
into a READY run; recorded for a run at work; a hold firing restarts the timer (that it gives one to a run made without:
log entry 41). With no run of its trigger it is taken: the run takes the captured values and the continue point, every
run of the cancel set is retired CANCELLED (by rising index, so that the latest outcome record is that of the highest:
log entry 44; the last step of one DAMAGED at its first: log entry 12) with its continue point, the relock timer stops,
and the new run preempts an ACTIVE run of lower priority
that is left. A CRASH firing first retires every other run and clears every continue point, refire record and the relock
timer; its run has priority 3 and no hold timer. The moments on the clock are log entry 2's. -/
def Obligations.FiringsAreDecidedByTheRun : Prop :=
  (∀ (f : Firing) (s : State), f.trigger ≠ .crash →
    (firingStart s f = none → fire f s = (s, .triggerDisabled)) ∧
    (∀ i r, firingStart s f = some i → runAt s f.trigger = some r →
      (r.state = .faulted → fire f s = (raise .triggerRefused s, .triggerParked)) ∧
      (r.state ≠ .faulted → (triggerAt s f.trigger).holdToRun = true → f.holdMark = true →
        fire f s = (setRun f.trigger (some { r with hold := some (s.now + ms 600) }) s, .fired)) ∧
      (((triggerAt s f.trigger).holdToRun = false ∨ f.holdMark = false) →
        (r.state = .ready → fire f s = (s, .fired)) ∧
        (r.state = .active ∨ r.state = .suspended → fire f s = (setRefire f.trigger (some f.carried) s, .fired))))) ∧
  -- a firing that is taken
  (∀ (f : Firing) (i : Fin 64) (s : State), f.trigger ≠ .crash → firingStart s f = some i →
    runAt s f.trigger = none →
    let t := f.trigger
    let tr := triggerAt s t
    let x := (fire f s).1
    let cancels := fun u => u ≠ t ∧ tr.cancelSet.getLsbD (triggerIndex u).val = true
    (fire f s).2 = .fired ∧
    (∃ r, runAt x t = some r ∧ r.serial = s.engine.nextSerial ∧ r.origin = f.carried.origin ∧
      r.role = f.carried.role ∧ r.slot = f.carried.slot ∧ r.steps = 0 ∧ r.step = none ∧ r.fault = none ∧
      r.pause = none ∧ r.searchWait = false ∧ (∀ a, r.remaining.get a = false ∧ r.outcomes.get a = none) ∧
      r.hold = (if tr.holdToRun then some (s.now + ms 600) else none) ∧
      (tr.staging = .always → r.staged = true) ∧ (tr.staging = .never → r.staged = false) ∧
      (tr.staging = .keyProfile →
        (r.staged = true ↔ ∃ p, f.carried.profile = some p ∧ p.unlockMode = .originFirst)) ∧
      (f.request = none → r.priority = tr.priority) ∧ (∀ q, f.request = some q → r.priority = q.2) ∧
      (continueAt s t = none → r.stepIndex = i) ∧ (∀ c, continueAt s t = some c → r.stepIndex = c.step) ∧
      -- the engine's holder
      (activeTrigger s = none → r.state = .ready) ∧
      (∀ u, activeTrigger s = some u → cancels u → engineInvariant s → r.state = .ready) ∧
      (∀ u y, activeTrigger s = some u → ¬cancels u → runAt s u = some y →
        (r.priority ≤ y.priority → r.state = .ready ∧ runAt x u = some y) ∧
        (y.priority < r.priority → r.state = .active ∧
          runAt x u = some { y with
            state := .suspended,
            pause := y.pause.map fun p => match p.since with
              | some e => { left := p.left - (s.now - e), since := none }
              | none => p }))) ∧
    x.engine.nextSerial = s.engine.nextSerial + 1 ∧ x.engine.relock = none ∧ continueAt x t = none ∧
    refireAt x t = refireAt s t ∧
    (∀ u, cancels u → runAt x u = none ∧ continueAt x u = none) ∧
    (∀ u y, cancels u → runAt s u = some y → refireAt x u = none ∧ raised .chainDone x = true ∧
      ((∀ v z, cancels v → runAt s v = some z → (triggerIndex v).val ≤ (triggerIndex u).val) →
        x.engine.latest = some { trigger := u, outcome := .cancelled, slot := y.slot,
                                 lastStep := if y.steps = 0 then none else some y.stepIndex })) ∧
    (∀ u, u ≠ t → ¬cancels u → continueAt x u = continueAt s u ∧ refireAt x u = refireAt s u ∧
      (activeTrigger s ≠ some u → activeTrigger s = none ∨ engineInvariant s → runAt x u = runAt s u))) ∧
  -- a CRASH firing
  (∀ s : State,
    let y := crashSweep s
    (∀ u, u ≠ .crash → runAt y u = none ∧ refireAt y u = none) ∧ (∀ u, continueAt y u = none) ∧
    y.engine.relock = none ∧ runAt y .crash = runAt s .crash ∧ refireAt y .crash = refireAt s .crash ∧
    y.engine.nextSerial = s.engine.nextSerial ∧
    (∀ u z, u ≠ .crash → runAt s u = some z → raised .chainDone y = true ∧
      ((∀ v r, v ≠ .crash → runAt s v = some r → (triggerIndex v).val ≤ (triggerIndex u).val) →
        y.engine.latest = some { trigger := u, outcome := .cancelled, slot := z.slot,
                                 lastStep := if z.steps = 0 then none else some z.stepIndex })) ∧
    ((∀ u, u ≠ .crash → runAt s u = none) → y.engine.latest = s.engine.latest)) ∧
  ∀ (f : Firing) (s : State), f.trigger = .crash → f.request = none → f.holdMark = false →
    let y := crashSweep s
    ((triggerAt s .crash).start = none → fire f s = (y, .triggerDisabled)) ∧
    (∀ i, (triggerAt s .crash).start = some i →
      (∀ r, runAt s .crash = some r →
        (r.state = .faulted → fire f s = (raise .triggerRefused y, .triggerParked)) ∧
        (r.state = .ready → fire f s = (y, .fired)) ∧
        (r.state = .active ∨ r.state = .suspended → fire f s = (setRefire .crash (some f.carried) y, .fired))) ∧
      (runAt s .crash = none → (fire f s).2 = .fired ∧ (∀ u, u ≠ .crash → runAt (fire f s).1 u = none) ∧
        ∃ r, runAt (fire f s).1 .crash = some r ∧ r.state = .ready ∧ r.priority = 3 ∧ r.hold = none ∧
          r.stepIndex = i ∧ r.steps = 0 ∧ r.step = none ∧ r.fault = none ∧ r.serial = s.engine.nextSerial ∧
          r.origin = f.carried.origin ∧ r.role = f.carried.role ∧ r.slot = f.carried.slot))

/-- RUN_RESOLVE and the hold timer. A run that does not exist is NOT_FOUND, one not FAULTED is REFUSED(NOT_FAULTED).
ABANDON, and a hold timer's expiry, retire the run: it is gone, CHAIN_DONE is raised, the latest outcome record is
overwritten (the last step of a run whose first step was DAMAGED: log entry 12), the refire record cleared,
the windows it moves are stopped and its follow-ons removed without an outcome,
and it leaves the waiters of every search. RETRY makes it READY without its fault, its faulted apertures outstanding
again, a hold timer as its trigger now says (log entry 31); with another run ACTIVE it waits, or preempts that run when
its priority is higher. The moments on the clock are log entry 2's. -/
def Obligations.RunsAreResolvedAndReleased : Prop :=
  (∀ (b : Byte) (u : Trigger) (s : State), Serving s → triggerOfByte b = some u →
    (runAt s u = none → exec (.runResolveRetry b) s = .next (reply .notFound [] (taken 2 s)) ∧
      exec (.runResolveAbandon b) s = .next (reply .notFound [] (taken 2 s))) ∧
    (∀ r, runAt s u = some r → r.state ≠ .faulted →
      exec (.runResolveRetry b) s = .next (reply (.refused .notFaulted) [] (taken 2 s)) ∧
      exec (.runResolveAbandon b) s = .next (reply (.refused .notFaulted) [] (taken 2 s))) ∧
    (∀ r, runAt s u = some r → r.state = .faulted →
      (∃ x, exec (.runResolveAbandon b) s = .next (reply .ok [] (finishEvent x)) ∧ runAt x u = none ∧
        raised .chainDone x = true ∧ refireAt x u = none ∧
        x.engine.latest = some { trigger := u, outcome := .abandoned, slot := r.slot,
                                 lastStep := if r.steps = 0 then none else some r.stepIndex }) ∧
      (exec (.runResolveAbandon b) s = .next (reply .ok [] (finishEvent (retire u .abandoned (taken 2 s))))) ∧
      (∃ y, y = { r with
            state := .ready, fault := none, remaining := y.remaining, outcomes := y.outcomes,
            hold := if (triggerAt s u).holdToRun then some (s.now + ms 600) else none } ∧
        (∀ a k, r.outcomes.get a = some (.fault k) → y.remaining.get a = true ∧ y.outcomes.get a = none) ∧
        (∀ a, (∀ k, r.outcomes.get a ≠ some (.fault k)) →
          y.remaining.get a = r.remaining.get a ∧ y.outcomes.get a = r.outcomes.get a) ∧
        let z := setRun u (some y) (taken 2 s)
        (activeTrigger s = none → exec (.runResolveRetry b) s = .next (reply .ok [] (finishEvent z))) ∧
        (∀ v x, activeTrigger s = some v → runAt s v = some x →
          (r.priority ≤ x.priority → exec (.runResolveRetry b) s = .next (reply .ok [] (finishEvent z))) ∧
          (x.priority < r.priority → exec (.runResolveRetry b) s = .next (reply .ok [] (finishEvent (activate u
            (setRun v (some { x with
              state := .suspended,
              pause := x.pause.map fun p => match p.since with
                | some e => { left := p.left - (s.now - e), since := none }
                | none => p }) z))))))) ∧
      (activeTrigger s = none → s.mail = [] → ∃ t y, exec (.runResolveRetry b) s = .next t ∧ runAt t u = some y ∧
        y.state = .ready ∧ y.fault = none ∧ y.steps = r.steps ∧ y.stepIndex = r.stepIndex ∧ y.step = r.step ∧
        (∀ a k, r.outcomes.get a = some (.fault k) → y.remaining.get a = true ∧ y.outcomes.get a = none) ∧
        t.link.state = .replyReady { status := .ok, overrun := s.link.overrun, payload := [] }))) ∧
  (∀ (u : Trigger) (r : Run) (e : Nat) (s : State), s.power = .running → runAt s u = some r → r.hold = some e →
    exec (.holdTimerExpiry u) s = .next (finishEvent (retire u .released (clockTo e s))) ∧
    ∃ x, exec (.holdTimerExpiry u) s = .next (finishEvent x) ∧ runAt x u = none ∧ raised .chainDone x = true ∧
      x.now = max s.now e ∧ refireAt x u = none ∧
      x.engine.latest = some { trigger := u, outcome := .released, slot := r.slot,
                               lastStep := if r.steps = 0 then none else some r.stepIndex }) ∧
  -- a retirement
  ∀ (u : Trigger) (o : RunOutcome) (r : Run) (s : State), runAt s u = some r →
    let x := retire u o s
    let mine := fun m : Movement => m.requester = .chain u
    let keep := fun w : SearchWaiter => match w with
      | .link => true
      | .run v _ => decide (v ≠ u)
    runAt x u = none ∧ refireAt x u = none ∧ raised .chainDone x = true ∧
    x.engine.latest = some { trigger := u, outcome := o, slot := r.slot,
                             lastStep := if r.steps = 0 then none else some r.stepIndex } ∧
    (∀ v, v ≠ u → runAt x v = runAt s v ∧ refireAt x v = refireAt s v) ∧
    (∀ v, continueAt x v = continueAt s v) ∧ x.engine.relock = s.engine.relock ∧
    x.latches = s.latches ∧ x.mail = s.mail ∧
    -- its windows
    (∀ d m, (windowAt s d).motion = some m → mine m.move →
      ((windowAt s d).phase = .running → (windowAt x d).phase = .coasting ∧ (windowAt x d).coastEnd = s.now + ms 40) ∧
      ((windowAt s d).phase = .marking → (windowAt x d).phase = .idle ∧ (windowAt x d).motion = none ∧
        ∃ e ∈ x.store.queue, e.id = .window d ∧ e.content = .window (windowAt x d).record)) ∧
    (∀ d f, (windowAt s d).followOn = some f → mine f → (windowAt x d).followOn = none) ∧
    (∀ d, (inProgress (windowAt s d) = true → ∀ m, (windowAt s d).motion = some m → ¬mine m.move) →
      (∀ f, (windowAt s d).followOn = some f → ¬mine f) → windowAt x d = windowAt s d) ∧
    -- its searches
    x.entry.search = s.entry.search.map (fun f => { f with waiters := f.waiters.filter keep }) ∧
    x.entry.queue = (s.entry.queue.map fun q => { q with waiters := q.waiters.filter keep }).filter fun q =>
      q.purpose ≠ .insideCheck || !q.waiters.isEmpty

/-- The engine's timers: the relock timer stops and fires AUTO_RELOCK with role SYSTEM at the driver aperture; a
continue point is cleared silently; a PAUSE that has run out is absent and its step goes on. An outcome is recorded in
the run and the step it belongs to while its aperture is outstanding there, and discarded otherwise (that it waits for
the event's end is the model's choice, log entry 24). How a step and a run end: the event ends when no run can move,
which it reaches with at most one run ACTIVE (kept by every step, see TheEngineHasOneHolder); a found key ends the run KEY_INSIDE; a FAULT parks the run with the first faulted
aperture (the CRASH run records it and goes on); then NOTIFY, STOP, STAGE with a continue point, RUNAWAY after 64 steps,
or the next step. A run that ends leaves its record, CHAIN_DONE, the relock timer's start after an unlock, and its
refire. The moments on the clock are log entry 2's. -/
def Obligations.EngineTimersExpire : Prop :=
  (∀ (e : Nat) (s : State), s.power = .running → s.engine.relock = some e →
    exec .relockTimerExpiry s = .next (finishEvent
      (fire { trigger := .autoRelock,
              carried := { origin := driverAperture s, role := .system, slot := none, profile := none },
              holdMark := false, request := none }
        { s with now := max s.now e, engine := { s.engine with relock := none } }).1)) ∧
  (∀ (u : Trigger) (c : ContinuePoint) (s : State), s.power = .running → continueAt s u = some c →
    ∃ t, exec (.continuePointExpiry u) s = .next t ∧ continueAt t u = none ∧ t.now = max s.now c.expiry ∧
      t.engine.runs = s.engine.runs ∧ t.link = s.link ∧ (∀ v, v ≠ u → continueAt t v = continueAt s v)) ∧
  (∀ (u : Trigger) (r : Run) (left since : Nat) (s : State), s.power = .running → activeTrigger s = some u →
    runAt s u = some r → r.pause = some { left, since := some since } →
      exec .pauseEnd s =
        .next (finishEvent (setRun u (some { r with pause := none }) (clockTo (since + left) s)))) ∧
  -- the end of an event
  ((∀ s : State, finishEvent s = deliver (settle 140 (deliver s))) ∧
   ∀ (n : Nat) (s : State), (engineMove s = none → settle n s = s) ∧
     ∀ x, engineMove s = some x → settle (n + 1) s = settle n x) ∧
  (∀ s : State, oneActive s → Settled (finishEvent s)) ∧
  -- an outcome reaches its run
  ((∀ s : State, deliver s = s.mail.foldl recordNotice { s with mail := [] }) ∧
   ∀ (n : Notice) (s : State),
     let belongs := fun r : Run => r.serial = n.serial ∧ r.steps = n.count ∧ r.remaining.get n.aperture = true
     (∀ r, runAt s n.trigger = some r → belongs r → recordNotice s n = setRun n.trigger (some { r with
        remaining := r.remaining.set n.aperture false, outcomes := r.outcomes.set n.aperture (some n.outcome) }) s) ∧
     ((∀ r, runAt s n.trigger = some r → ¬belongs r) → recordNotice s n = s)) ∧
  -- the end of a step
  (∀ (u : Trigger) (r : Run) (st : Step) (s : State), activeTrigger s = some u → runAt s u = some r →
     r.step = some st →
     (stepDone r st = false → engineMove s = none) ∧
     (st.action = .pause → (stepDone r st = true ↔ r.pause = none)) ∧
     (st.action = .checkInside → (stepDone r st = true ↔ r.searchResult ≠ none)) ∧
     (st.action ≠ .pause → st.action ≠ .checkInside →
       (stepDone r st = true ↔ ∀ a, r.remaining.get a = false)) ∧
     (stepDone r st = true →
       (st.action = .checkInside → r.searchResult = some true →
         engineMove s = some (endRun u r .keyInside (raise .keyInside s))) ∧
       ((st.action ≠ .checkInside ∨ r.searchResult ≠ some true) →
         (∀ f, firstFault r = some f →
           (u ≠ .crash → ∃ x, engineMove s = some x ∧ raised .chainFault x = true ∧
             runAt x u = some { r with state := .faulted, fault := some f, hold := none } ∧
             (∀ v, v ≠ u → runAt x v = runAt s v) ∧ refireAt x u = refireAt s u ∧
             x.engine.latest = s.engine.latest ∧ x.engine.relock = s.engine.relock) ∧
           (u = .crash → let y := { r with fault := r.fault.or (some f) }
             engineMove s = some (afterStep .crash y st (raise .chainFault (setRun .crash (some y) s))))) ∧
         (firstFault r = none → engineMove s = some (afterStep u r st s))))) ∧
  (∀ r : Run, (∀ a k, r.outcomes.get a = some (.fault k) →
       (∀ b, apertureCode b < apertureCode a → ∀ j, r.outcomes.get b ≠ some (.fault j)) →
         firstFault r = some (k, some a)) ∧
     ((∀ a k, r.outcomes.get a ≠ some (.fault k)) → firstFault r = none)) ∧
  (∀ (u : Trigger) (r : Run) (st : Step) (s : State),
     let s1 := if hasNotify st then raise .chainNotify s else s
     (hasStop st = true → afterStep u r st s = endRun u r .completed s1) ∧
     (hasStop st = false → hasStage st = true → r.staged = true → afterStep u r st s = endRun u r .staged
       (setContinue u (some { step := st.next, expiry := s.now + ms (s.link.settings.stagedWindow * 1000) }) s1)) ∧
     (hasStop st = false → hasStage st = false ∨ r.staged = false →
       (64 ≤ r.steps → afterStep u r st s = endRun u r .runaway s1) ∧
       (r.steps < 64 → afterStep u r st s = setRun u (some { r with stepIndex := st.next, step := none }) s1))) ∧
  -- the end of a run
  ∀ (u : Trigger) (r : Run) (o : RunOutcome) (s : State),
    ∃ y, (refireAt s u = none → endRun u r o s = y) ∧
      (∀ c, refireAt s u = some c → endRun u r o s =
        (fire { trigger := u, carried := c, holdMark := false, request := none } (setRefire u none y)).1) ∧
      runAt y u = none ∧ (∀ v, v ≠ u → runAt y v = runAt s v) ∧ raised .chainDone y = true ∧
      y.engine.latest = some { trigger := u, outcome := o, slot := r.slot, lastStep := some r.stepIndex } ∧
      (∀ v, continueAt y v = continueAt s v ∧ refireAt y v = refireAt s v) ∧
      ((u = .fobUnlock ∨ u = .passiveUnlock) → (o = .completed ∨ o = .staged) → s.vehicle.powerMode = .off →
        s.sup.mode ≠ .autonomous →
          y.engine.relock = some (s.now + ms (s.link.settings.relockDelay * 1000))) ∧
      ((u ≠ .fobUnlock ∧ u ≠ .passiveUnlock) ∨ (o ≠ .completed ∧ o ≠ .staged) ∨ s.vehicle.powerMode ≠ .off ∨
        s.sup.mode = .autonomous → y.engine.relock = s.engine.relock)

/-- With no ACTIVE run the engine takes the waiting run of the highest priority, the lowest index among equals. A run
taken with its step begun is resumed: parked on a recorded fault, its PAUSE runs on, what is missing is reissued; one
whose step is not begun begins it: the steps count up, the outcomes are cleared and the step captured, or RUNAWAY at the
64th, a DAMAGED step parks the run (and ends CRASH's), EMPTY ends it, PAUSE sets its time, CHECK_INSIDE asks for a
search, and any other action resolves its set, which is denied DENIED(ROLE) to too low a role and is otherwise issued,
what SKIP_MET finds met being given MET. Each aperture that remains is one request at its unit, with the run's serial
and step count; while the switch it acts on has not first qualified it is deferred (a second one beside an earlier:
log entry 45); a WINDOW_TO aims at floor(percent × Lt / 100) and is DENIED(UNNORMALIZED) unissued without Lt. What the
unit answers at once is recorded, but that the run overrode its own earlier operation; under NO_WAIT an aperture still
outstanding is then ISSUED. A child-lock action where no child lock is fitted, and a RELEASE at a side door, act on no
switch and are issued, to be denied, at once and whatever has qualified (the model's reading: log entry 30). -/
def Obligations.TheEngineChoosesByPriorityThenIndex : Prop :=
  (∀ (u : Trigger) (r : Run) (s : State), s.power = .running → activeTrigger s = none → runAt s u = some r →
    waits r = true →
    (∀ v x, runAt s v = some x → waits x = true →
      x.priority < r.priority ∨ (x.priority = r.priority ∧ (triggerIndex u).val ≤ (triggerIndex v).val)) →
      exec .engineChoice s = .next (finishEvent (activate u s))) ∧
  -- a run becomes ACTIVE
  (∀ (u : Trigger) (r : Run) (s : State), runAt s u = some r →
    let y := { r with state := .active }
    let s1 := setRun u (some y) s
    (r.step = none → activate u s = s1) ∧
    (∀ st, r.step = some st →
      (∀ f, firstFault r = some f → activate u s =
        raise .chainFault (setRun u (some { y with state := .faulted, fault := some f, hold := none }) s1)) ∧
      (firstFault r = none →
        (st.action = .pause → activate u s =
          setRun u (some { y with pause := r.pause.map fun p => { p with since := some s.now } }) s1) ∧
        (st.action = .checkInside → activate u s = s1) ∧
        (st.action ≠ .pause → st.action ≠ .checkInside →
          ((∀ a, r.remaining.get a = false) → activate u s = s1) ∧
          (∀ a, r.remaining.get a = true → activate u s = issueStep u st s1))))) ∧
  -- a run begins its step
  (∀ (u : Trigger) (r : Run) (s : State), activeTrigger s = some u → runAt s u = some r → r.step = none →
    let y := { r with steps := r.steps + 1, outcomes := Five.all none, remaining := Five.all false, pause := none,
                      searchWait := false, searchResult := none }
    (64 ≤ r.steps → engineMove s = some (endRun u r .runaway s)) ∧
    (r.steps < 64 →
      (stepAt s r.stepIndex = .damaged →
        (u ≠ .crash → ∃ x, engineMove s = some x ∧ raised .chainFault x = true ∧
          runAt x u = some { y with state := .faulted, fault := some (.damagedStep, none), hold := none } ∧
          ∀ v, v ≠ u → runAt x v = runAt s v) ∧
        (u = .crash → engineMove s = some (endRun .crash
          { y with fault := r.fault.or (some (.damagedStep, none)) } .completed
          (raise .chainFault (setRun .crash (some y) s))))) ∧
      (∀ st, stepAt s r.stepIndex = .step st →
        let z := { y with step := some st }
        let set := resolvedSet st r.origin
        (st.action = .empty → engineMove s = some (endRun u z .completed (setRun u (some z) s))) ∧
        (∀ n, st.action = .pause → st.argument = some n → engineMove s =
          some (setRun u (some { z with pause := some { left := ms (n * 10), since := some s.now } }) s)) ∧
        (st.action = .checkInside → engineMove s = some (requestSearch .interior .insideCheck [.run u r.serial]
          (setRun u (some { z with searchWait := true }) s))) ∧
        (st.action ≠ .empty → st.action ≠ .pause → st.action ≠ .checkInside →
          (∀ a, set.get a = true ↔
            (st.apertures.getLsbD (apertureCode a) = true ∨ (st.apertures.getLsbD 5 = true ∧ r.origin = a)) ∧
            ¬(a = .tg ∧ (st.action = .windowClose ∨ st.action = .windowOpen ∨ st.action = .windowTo))) ∧
          (roleRank r.role < roleRank st.minRole → ∃ w, engineMove s = some (setRun u (some w) s) ∧
            w.step = some st ∧ w.steps = r.steps + 1 ∧ w.state = r.state ∧ ∀ a, w.remaining.get a = false ∧
              w.outcomes.get a = if set.get a then some (.denied .role) else none) ∧
          (roleRank st.minRole ≤ roleRank r.role →
            engineMove s = some (issueStep u st (setRun u (some { z with remaining := set }) s))))))) ∧
  -- a step is issued
  ∀ (u : Trigger) (r : Run) (st : Step) (s : State), runAt s u = some r →
    issueStep u st s = allApertures.foldl
      (issueAperture u { serial := r.serial, count := r.steps, skipMet := hasSkipMet st } st) (skipMet u st s) ∧
    (hasSkipMet st = false → skipMet u st s = s) ∧
    (hasSkipMet st = true → ∃ w, runAt (skipMet u st s) u = some w ∧ (∀ v, v ≠ u → runAt (skipMet u st s) v = runAt s v) ∧
      (skipMet u st s).latches = s.latches ∧ (skipMet u st s).windows = s.windows ∧ w.serial = r.serial ∧
      w.steps = r.steps ∧ w.state = r.state ∧
      ∀ a, (r.remaining.get a = true → stepMet s st a = true →
          w.remaining.get a = false ∧ w.outcomes.get a = some .met) ∧
        (r.remaining.get a = false ∨ stepMet s st a = false →
          w.remaining.get a = r.remaining.get a ∧ w.outcomes.get a = r.outcomes.get a)) ∧
    (∀ a g, r.remaining.get a = false → issueAperture u g st s a = s) ∧
    -- an aperture is issued
    (∀ a g, r.remaining.get a = true →
      let x := issueOne u g st a s
      let own := fun n : Notice =>
        decide (n.trigger = u ∧ n.serial = g.serial ∧ n.count = g.count ∧ n.aperture = a ∧ n.outcome = .overridden)
      let y := deliver { x with mail := x.mail.filter fun n => !own n }
      ∃ w, runAt y u = some w ∧
        (hasNoWait st = false ∨ w.remaining.get a = false → issueAperture u g st s a = y) ∧
        (hasNoWait st = true → w.remaining.get a = true → issueAperture u g st s a = setRun u (some { w with
          remaining := w.remaining.set a false, outcomes := w.outcomes.set a (some .issued) }) y)) ∧
    (∀ a g,
      let issues := fun x : State => issueOne u g st a s = x
      let unnormalized : Notice :=
        { trigger := u, serial := g.serial, count := g.count, aperture := a, outcome := .denied .unnormalized }
      let asked := fun x : HeldTarget => (requestLatch a x (.chain u) [g] s).1
      let later := fun x : HeldTarget =>
        { s with latches := { s.latches with deferred := s.latches.deferred ++ [.chain a x u g] } }
      let latch := fun x : HeldTarget => (pairQualified s a = true → issues (asked x)) ∧
        (pairQualified s a = false → issues (later x))
      let child := fun x : HeldTarget =>
        ((∀ e, apertureRear a = some e → childQualified s e = true) → issues (asked x)) ∧
        (∀ e, apertureRear a = some e → childQualified s e = false → issues (later x))
      (st.action = .lock → latch .locked) ∧ (st.action = .unlock → latch .unlocked) ∧
      (st.action = .deadlock → latch .deadlocked) ∧ (st.action = .childOn → child .on) ∧
      (st.action = .childOff → child .off) ∧
      (st.action = .tailgateRelease → (a ≠ .tg → issues (asked .release)) ∧ (a = .tg → latch .release)) ∧
      (∀ d, apertureDoor a = some d →
        (st.action = .windowClose → issues (requestMovement d (plainMove .closing .toEnd (.chain u) [g]) s).1) ∧
        (st.action = .windowOpen → issues (requestMovement d (plainMove .opening .toEnd (.chain u) [g]) s).1) ∧
        (∀ p, st.action = .windowTo → st.argument = some p →
          ((windowAt s d).record.travel = none → issues { s with mail := s.mail ++ [unnormalized] }) ∧
          (∀ l, (windowAt s d).record.travel = some l →
            issues (requestMovement d (positionMove (windowAt s d) (p * l / 100) (.chain u) [g]) s).1))))

/-- At most one run is ACTIVE, and no READY or SUSPENDED run has a priority above the ACTIVE run's. Every step keeps
it; and a step that finds nothing on its way to the engine and no run that can move leaves it so, as 140 moves are
enough for a run of 64 steps. -/
def Obligations.TheEngineHasOneHolder : Prop :=
  ∀ s t : State, engineInvariant s → step s = .next t → engineInvariant t ∧ (Settled s → Settled t)

/-! ### The Record Store -/

/-- An offered write merges in place with a queued entry of its record, its waiters joining, or takes the tail; the
queue never holds two entries for one record; the repair entry of the record is dropped. A write starts from the head
of the queue, or of the repair list when the queue is empty, once the scan is done and no write is in flight; its
completion stores the content and tells its waiter. A host change's completion replies OK and clears the marker; a frame
that waited at that record's match is looked up again and goes on against the record as it then stands: dropped when no
record holds its identity any more, otherwise rejected or accepted as FramesAreTakenAndJudged says. -/
def Obligations.WritesMergeStartAndComplete : Prop :=
  (∀ (id : RecordId) (c : Content) (w : List WriteWaiter) (s : State),
     ((∃ e ∈ s.store.queue, e.id = id) →
       (offer id c w s).store.queue.map WriteEntry.id = s.store.queue.map WriteEntry.id ∧
       ∀ e ∈ s.store.queue, e.id = id → { id, content := c, waiters := e.waiters ++ w } ∈ (offer id c w s).store.queue) ∧
     ((∀ e ∈ s.store.queue, e.id ≠ id) →
       (offer id c w s).store.queue = s.store.queue ++ [{ id, content := c, waiters := w }]) ∧
     ((s.store.queue.map WriteEntry.id).Nodup → ((offer id c w s).store.queue.map WriteEntry.id).Nodup) ∧
     (∀ p ∈ (offer id c w s).store.repair, p.1 ≠ id)) ∧
  ((∀ (e : WriteEntry) (rest : List WriteEntry) (s : State), s.power = .running → s.store.scanDone = true →
     s.store.inFlight = none → s.store.queue = e :: rest →
       exec .storeWriteStart s = .next { s with store := { s.store with queue := rest, inFlight := some e } }) ∧
   (∀ (id : RecordId) (c : Content) (rest : List (RecordId × Content)) (s : State), s.power = .running →
     s.store.scanDone = true → s.store.inFlight = none → s.store.queue = [] → s.store.repair = (id, c) :: rest →
       exec .storeWriteStart s = .next { s with store := { s.store with
         repair := rest, inFlight := some { id, content := c, waiters := [] } } }) ∧
   (∀ (e : WriteEntry) (s : State), s.power = .running → Settled s → s.store.inFlight = some e →
     let s1 := { s with store := { s.store with
       flash := writeFlash e.id e.content s.store.flash, inFlight := none } }
     (e.waiters = [] → exec .storeWriteComplete s = .next s1) ∧
     (e.waiters = [.replyOk] → exec .storeWriteComplete s = .next (reply .ok [] s1)) ∧
     (e.waiters = [.applied] → exec .storeWriteComplete s = .next (replyResult .applied [] s1)) ∧
     (∀ i, e.waiters = [.linkChange i] →
       let s2 := reply .ok [] (setKey i { keyAt s i with marker := .none } s1)
       ((∀ f, s.entry.processing ≠ some { stamped := f, stage := .atMatch i }) →
         exec .storeWriteComplete s = .next s2) ∧
       ∀ f, s.entry.processing = some { stamped := f, stage := .atMatch i } →
         let gives := fun (p : Option Processing) (x : State) =>
           exec .storeWriteComplete s = .next { x with entry := { x.entry with processing := p } }
         (findIdentity s2 f.frame.identity = none → gives none s2) ∧
         ∀ j, findIdentity s2 f.frame.identity = some j →
           let k := keyAt s2 j
           (k.marker = .linkChange → gives (some { stamped := f, stage := .atMatch j }) s2) ∧
           (∀ r, k.marker ≠ .linkChange → verdict k f = .reject r → gives none (raise .keyReject
             (writeAccess j (accessOfFob f.frame.command) (.rejected r) (setKey j { k with
               rejects := min 255 (k.rejects + 1)
               resync := if r = .resyncPending then some (f.frame.counter, f.arrival) else k.resync } s2)))) ∧
           (k.marker ≠ .linkChange → verdict k f = .accept →
             gives (some { stamped := f, stage := .accepted j })
               (offer (.key j) (.key { k.stored with counter := f.frame.counter }) [.counterPersist j] (setKey j
                 { stored := { k.stored with counter := f.frame.counter }, resync := none, rejects := 0,
                   batteryLow := f.frame.batteryLow, marker := .counterPersist } s2)))) ∧
     (∀ d, e.waiters = [.marker d] → exec .storeWriteComplete s = .next s1) ∧
     (∀ n, e.waiters = [.chainsDefault] → s.engine.defaulting = some n →
       exec .storeWriteComplete s = .next (persistDefault (n + 1) s1) ∧
       (∀ p, defaultRecord (n + 1) = some p → Queued (persistDefault (n + 1) s1) p.1 p.2 .chainsDefault) ∧
       (n = 77 → persistDefault (n + 1) s1 =
         reply .ok [] { s1 with engine := { s1.engine with defaulting := none } }))) ∧
   (∀ (e : WriteEntry) (s : State), s.power = .running → s.store.inFlight = some e →
     exec .storeWriteComplete s = .next (finishEvent (e.waiters.foldl tellWaiter { s with store := { s.store with
       flash := writeFlash e.id e.content s.store.flash, inFlight := none } }))))

/-- The completion of an accepted frame's counter write clears the marker and carries the held command out once: the
frame is no longer in processing and the access record names its slot, its command and what came of it. A hold command
of a key without comfort windows, or outside power mode OFF, is NOT_PERMITTED and fires nothing; every other fires its
trigger with the key's role, slot and profile at the driver aperture, with the hold mark for a hold command. A host change
that waited on the record begins after that: its checks are made against the record as it then stands, and one that passes
changes it, its write carrying the new counter and queued before what the event's end queues (log entry 51). -/
def Obligations.AcceptedCommandsAwaitTheirCounter : Prop :=
  (fobTrigger .lock = .fobLock ∧ fobTrigger .unlock = .fobUnlock ∧ fobTrigger .tailgate = .fobTailgate ∧
    fobTrigger .holdClose = .fobCloseAll ∧ fobTrigger .holdOpen = .fobOpenAll ∧
    (∀ c, isHold c = true ↔ c = .holdClose ∨ c = .holdOpen) ∧ resultOfAnswer .fired = .fired ∧
    resultOfAnswer .triggerDisabled = .triggerDisabled ∧ resultOfAnswer .triggerParked = .triggerParked) ∧
  ∀ (i : Fin 8) (e : WriteEntry) (f : StampedFrame) (s : State), s.power = .running → s.store.inFlight = some e →
    e.waiters = [.counterPersist i] → s.entry.processing = some { stamped := f, stage := .accepted i } →
      let c := f.frame.command
      let k := (keyAt s i).stored
      let s1 := setKey i { keyAt s i with marker := .none } { s with store := { s.store with
        flash := writeFlash e.id e.content s.store.flash, inFlight := none } }
      let ended := fun (y : AccessResult) (x : State) => { x with entry := { x.entry with
        processing := none, access := some { slot := i, command := accessOfFob c, result := y } } }
      let refused := isHold c = true ∧ (k.profile.comfortWindows = false ∨ s.vehicle.powerMode ≠ .off)
      let gives := fun x : State => exec .storeWriteComplete s = .next (finishEvent x)
      -- what follows the command, at the state x that it leaves
      let goesOn := fun x : State =>
        let y := { x with keys := { x.keys with waiting := none } }
        ((∀ v, s.keys.waiting ≠ some (i, v)) → gives x) ∧
        ∀ v, s.keys.waiting = some (i, v) → keyAt y i = { keyAt s i with marker := .none } ∧
          (∀ st, keyCheck y i v = some st → gives (reply st [] y)) ∧
          (keyCheck y i v = none → nothingToChange (keyAt y i) v = true → gives (reply .ok [] y)) ∧
          (keyCheck y i v = none → nothingToChange (keyAt y i) v = false →
            gives (offer (.key i) (.key (changed (keyAt s i) v).stored) [.linkChange i]
              (setKey i { changed (keyAt s i) v with marker := .linkChange } y)))
      (refused → goesOn (ended .notPermitted s1)) ∧
      (¬refused →
        let r := fire { trigger := fobTrigger c,
                        carried := { origin := driverAperture s, role := k.role, slot := some i,
                                     profile := some k.profile },
                        holdMark := isHold c, request := none } s1
        goesOn (ended (resultOfAnswer r.2) r.1))

/-- The scan's completion: each owner loads what its stored copy, a blank store or a damaged record gives; the crash
hold's working value, the damage counts and STORE_DAMAGE follow, and the repair list holds the rewrites less the records
whose write is queued already. A CRASH firing kept pending through the scan is then taken, at the driver aperture of the
settings just loaded (log entry 42). -/
def Obligations.TheScanLoadsEveryOwner : Prop :=
  (∀ s : State, s.power = .running → s.store.scanDone = false →
    let f := s.store.flash
    ∃ x,
      (s.latches.crashPending = false → exec .scanComplete s = .next (finishEvent x)) ∧
      (s.latches.crashPending = true → exec .scanComplete s = .next (finishEvent
        (fire { trigger := .crash,
                carried := { origin := if (receivedSettings f).driverFr then .fr else .fl, role := .system,
                             slot := none, profile := none },
                holdMark := false, request := none } x).1)) ∧
      (∀ i, keyAt x i = KeyRecord.load (receivedKey f i)) ∧ (∀ i, stepAt x i = receivedStep f i) ∧
      (∀ u, triggerAt x u = receivedTrigger f (triggerIndex u) ∧ runAt x u = runAt s u) ∧
      x.link.settings = receivedSettings f ∧
      (∀ d, (windowAt x d).record = receivedWindow f d ∧ ((windowAt x d).known = true ↔
        (receivedWindow f d).valid = true ∧ (receivedWindow f d).position ≤ bound (receivedWindow f d).travel)) ∧
      x.latches = { s.latches with
        crashHold := receivedCrash f || s.latches.crashPending, crashPending := false } ∧
      x.store = { s.store with
        scanDone := true, damage := damageCounts f,
        repair := (repairs f).filter (fun p => !s.store.queue.any fun e => e.id = p.1) } ∧
      x.vehicle = s.vehicle ∧ x.inputs = s.inputs ∧ x.mail = s.mail) ∧
  ∀ s : State, s.power = .running → s.store.scanDone = false →
    ∃ t, exec .scanComplete s = .next t ∧ t.store.scanDone = true ∧ t.store.flash = s.store.flash ∧
      (∀ i, (keyAt t i).stored = receivedKey s.store.flash i ∧ (keyAt t i).marker = .none) ∧
      t.link.settings = receivedSettings s.store.flash ∧
      t.latches.crashHold = (receivedCrash s.store.flash || s.latches.crashPending) ∧
      t.latches.crashPending = false ∧ t.store.damage = damageCounts s.store.flash ∧
      (anyDamage (damageCounts s.store.flash) = true → raised .storeDamage t = true) ∧
      (Settled s → s.latches.crashPending = false →
        (∀ d, (windowAt t d).record = receivedWindow s.store.flash d ∧
          ((windowAt t d).known = true ↔ (receivedWindow s.store.flash d).valid = true ∧
            (receivedWindow s.store.flash d).position ≤ bound (receivedWindow s.store.flash d).travel)) ∧
        (∀ i, stepAt t i = receivedStep s.store.flash i) ∧
        (∀ u, triggerAt t u = receivedTrigger s.store.flash (triggerIndex u)) ∧
        t.store.queue = s.store.queue ∧
        t.store.repair = (repairs s.store.flash).filter fun p => !s.store.queue.any fun e => e.id = p.1)

/-- How a stored copy is judged: sound when its check is that of its content and every field lies in its range (the
check itself: log entry 37; what is out of range: log entry 34), erased, or damaged; a content written in its ranges is
sound, one whose write tore into no content is damaged. A blank store gives every default, all 92 records to rewrite in
the order of R158's table, and no damage. A damaged record, or an erased one in a store that is not blank, gives what
its kind's row says; triggers, settings, windows and the crash record are rewritten, no key and no step record is, and
no record that is sound (the order of the repair list in such a store: log entry 46). -/
def Obligations.BlankAndDamagedRecords : Prop :=
  -- judging
  ((∀ (α : Type) (content : α → Content) (inRange : α → Bool),
      judgeCopy content inRange .erased = .erased ∧ judgeCopy content inRange .unreadable = .damaged ∧
      ∀ x c, (c = Config.recordCheck (contentNumbers (content x)) → inRange x = true →
          judgeCopy content inRange (.record x c) = .sound x) ∧
        (c ≠ Config.recordCheck (contentNumbers (content x)) ∨ inRange x = false →
          judgeCopy content inRange (.record x c) = .damaged)) ∧
   (∀ f : Flash,
      (∀ i k, keyInRange k = true → judgedKey (writeFlash (.key i) (.key k) f) i = .sound k) ∧
      (∀ i st, stepInRange st = true → judgedStep (writeFlash (.step i) (.step st) f) i = .sound st) ∧
      (∀ u x, triggerInRange u x = true → judgedTrigger (writeFlash (.trigger u) (.trigger x) f) u = .sound x) ∧
      (∀ x, settingsInRange x = true → judgedSettings (writeFlash .settings (.settings x) f) = .sound x) ∧
      (∀ d w, windowInRange w = true → judgedWindow (writeFlash (.window d) (.window w) f) d = .sound w) ∧
      (∀ b, judgedCrash (writeFlash .crash (.crash b) f) = .sound b) ∧
      (∀ i, judgedKey (damageFlash (.key i) f) i = .damaged) ∧
      (∀ i, judgedStep (damageFlash (.step i) f) i = .damaged) ∧
      (∀ u, judgedTrigger (damageFlash (.trigger u) f) u = .damaged) ∧
      judgedSettings (damageFlash .settings f) = .damaged ∧
      (∀ d, judgedWindow (damageFlash (.window d) f) d = .damaged) ∧
      judgedCrash (damageFlash .crash f) = .damaged)) ∧
  -- a blank store
  (∀ f : Flash, (isBlank f = true ↔ (∀ i, judgedKey f i = .erased) ∧ (∀ i, judgedStep f i = .erased) ∧
      (∀ u, judgedTrigger f u = .erased) ∧ judgedSettings f = .erased ∧ (∀ d, judgedWindow f d = .erased) ∧
      judgedCrash f = .erased)) ∧
  (∀ f : Flash, isBlank f = true → (repairs f).length = 92 ∧
    (repairs f).map Prod.fst = (List.ofFn fun i => .key i) ++ (List.ofFn fun i => .step i) ++
      allTriggers.map .trigger ++ [.settings] ++ allDoors.map .window ++ [.crash] ∧
    damageCounts f = ⟨0, 0, 0, 0, 0, 0⟩ ∧
    (∀ i, receivedKey f i = KeyStored.empty ∧ ∀ j, receivedStep f j = .step (defaultStep j)) ∧
    (∀ u, receivedTrigger f (triggerIndex u) = defaultTrigger u) ∧ (defaultTrigger .crash).start = some 16 ∧
    (∀ d, receivedWindow f d = WindowRec.blank) ∧
    receivedSettings f = Settings.default ∧ receivedCrash f = false) ∧
  -- damaged records, and erased ones in a store that is not blank
  (∀ f : Flash, isBlank f = false →
    (∀ i x, (judgedKey f i = .sound x → receivedKey f i = x) ∧
      ((∀ y, judgedKey f i ≠ .sound y) → receivedKey f i = KeyStored.damaged)) ∧
    (∀ i x, (judgedStep f i = .sound x → receivedStep f i = .step x) ∧
      ((∀ y, judgedStep f i ≠ .sound y) → receivedStep f i = .damaged)) ∧
    (∀ u x, (judgedTrigger f u = .sound x → receivedTrigger f (triggerIndex u) = x ∧
        ∀ c, (RecordId.trigger u, c) ∉ repairs f) ∧
      ((∀ y, judgedTrigger f u ≠ .sound y) →
        receivedTrigger f (triggerIndex u) = { defaultTrigger u with start := none } ∧
        (RecordId.trigger u, Content.trigger { defaultTrigger u with start := none }) ∈ repairs f)) ∧
    (∀ x, (judgedSettings f = .sound x → receivedSettings f = x ∧ ∀ c, (RecordId.settings, c) ∉ repairs f) ∧
      ((∀ y, judgedSettings f ≠ .sound y) → receivedSettings f = Settings.default ∧
        (RecordId.settings, Content.settings Settings.default) ∈ repairs f)) ∧
    (∀ d x, (judgedWindow f d = .sound x → receivedWindow f d = x ∧ ∀ c, (RecordId.window d, c) ∉ repairs f) ∧
      ((∀ y, judgedWindow f d ≠ .sound y) → receivedWindow f d = WindowRec.blank ∧
        (RecordId.window d, Content.window WindowRec.blank) ∈ repairs f)) ∧
    (∀ x, (judgedCrash f = .sound x → receivedCrash f = x ∧ ∀ c, (RecordId.crash, c) ∉ repairs f) ∧
      ((∀ y, judgedCrash f ≠ .sound y) → receivedCrash f = true ∧
        (RecordId.crash, Content.crash true) ∈ repairs f)) ∧
    ((∀ i c, (RecordId.key i, c) ∉ repairs f) ∧ ∀ i c, (RecordId.step i, c) ∉ repairs f))

/-- The receive queue holds at most 2 frames, a reject count stops at 255, a speed is at most 255 km/h; every credit lies
within 0..3000 ms, every travel within 200..4000, a known position within 0..Lt + 24, or 0..4024 while Lt is absent, every
pinch count within 0..3 and every pinch score within 0..1023, and the score is 0 whenever the motor is not driving closing.
Every step keeps it. The identities of ACTIVE and SUSPENDED records are pairwise distinct, in the table and as the scan
would hand the stored copies over: an invariant says so, with what keeps it so (how the writes to come stand, and that after
each of them the stored copies are distinct), and every step keeps it, the scan's completion and the resets among them. -/
def Obligations.BoundsAreKept : Prop :=
  (∀ s t : State, bounded s → step s = .next t → bounded t) ∧
  (∀ s : State, bounded s →
    (∀ a, creditOf (latchAt s a) s.now ≤ 3000) ∧
    ∀ d, let w := windowAt s d
      (∀ l, w.record.travel = some l → 200 ≤ l ∧ l ≤ 4000) ∧
      (∀ l, w.known = true → w.record.travel = some l → w.record.position ≤ l + 24) ∧
      (w.known = true → w.record.travel = none → w.record.position ≤ 4024) ∧ w.pinchCount ≤ 3 ∧
      ∀ m, w.motion = some m → m.score ≤ 1023 ∧ (motor s d ≠ some .closing → m.score = 0)) ∧
  (∀ s : State, keysInvariant s → identitiesApart s ∧ receivedApart s.store.flash) ∧
  ∀ s t : State, keysInvariant s → step s = .next t → keysInvariant t
end

