-- ==== Sys2Proof/Laws/State.lean ====
section
/-! SUPPORT. What each update leaves as it was, field by field, and reading back what was written. -/

namespace Sys2Proof.Machine

open Sys2Proof

/-! ### Tables -/

@[simp] theorem look_put_same {α : Type} {n : Nat} (t : Vector α n) (i : Fin n) (x : α) : look (put t i x) i = x := by
  simp [look, put]

theorem look_put {α : Type} {n : Nat} (t : Vector α n) (i j : Fin n) (x : α) :
    look (put t i x) j = if i = j then x else look t j := by
  by_cases h : i = j
  · subst h; simp
  · have : i.val ≠ j.val := fun e => h (Fin.ext e)
    simp [look, put, h, this]

theorem Five.get_set {α : Type} (t : Five α) (a b : Aperture) (x : α) :
    (t.set a x).get b = if a = b then x else t.get b := by
  cases a <;> cases b <;> rfl

theorem Four.get_set {α : Type} (t : Four α) (a b : Door) (x : α) :
    (t.set a x).get b = if a = b then x else t.get b := by
  cases a <;> cases b <;> rfl

theorem Rears.get_set {α : Type} (t : Rears α) (a b : Rear) (x : α) :
    (t.set a x).get b = if a = b then x else t.get b := by
  cases a <;> cases b <;> rfl

theorem Fronts.get_set {α : Type} (t : Fronts α) (a b : Front) (x : α) :
    (t.set a x).get b = if a = b then x else t.get b := by
  cases a <;> cases b <;> rfl

theorem triggerIndex_inj {t u : Trigger} (h : triggerIndex t = triggerIndex u) : t = u := by
  revert h; cases t <;> cases u <;> decide

theorem latchAt_setLatch (a b : Aperture) (u : LatchUnit) (s : State) :
    latchAt (setLatch a u s) b = if a = b then u else latchAt s b := Five.get_set _ _ _ _

@[simp] theorem latchAt_setLatch_same (a : Aperture) (u : LatchUnit) (s : State) : latchAt (setLatch a u s) a = u := by
  rw [latchAt_setLatch]; simp

theorem childAt_setChild (a b : Rear) (c : ChildLock) (s : State) :
    childAt (setChild a c s) b = if a = b then c else childAt s b := Rears.get_set _ _ _ _

theorem windowAt_setWindow (a b : Door) (w : Window) (s : State) :
    windowAt (setWindow a w s) b = if a = b then w else windowAt s b := Four.get_set _ _ _ _

@[simp] theorem windowAt_setWindow_same (d : Door) (w : Window) (s : State) : windowAt (setWindow d w s) d = w := by
  rw [windowAt_setWindow]; simp

theorem keyAt_setKey (i j : Fin 8) (k : KeyRecord) (s : State) :
    keyAt (setKey i k s) j = if i = j then k else keyAt s j := look_put _ _ _ _

@[simp] theorem keyAt_setKey_same (i : Fin 8) (k : KeyRecord) (s : State) : keyAt (setKey i k s) i = k := by
  rw [keyAt_setKey]; simp

theorem runAt_setRun (t u : Trigger) (r : Option Run) (s : State) :
    runAt (setRun t r s) u = if t = u then r else runAt s u := by
  have h := look_put s.engine.runs (triggerIndex t) (triggerIndex u) r
  rw [show runAt (setRun t r s) u = look (put s.engine.runs (triggerIndex t) r) (triggerIndex u) from rfl, h]
  by_cases e : t = u
  · subst e; simp
  · have : triggerIndex t ≠ triggerIndex u := fun x => e (triggerIndex_inj x)
    simp [e, this, runAt]

@[simp] theorem runAt_setRun_same (t : Trigger) (r : Option Run) (s : State) : runAt (setRun t r s) t = r := by
  rw [runAt_setRun]; simp

/-! ### setLatch -/

@[simp] theorem setLatch_now (a : Aperture) (u : LatchUnit) (s : State) : (setLatch a u s).now = s.now := rfl
@[simp] theorem setLatch_power (a : Aperture) (u : LatchUnit) (s : State) : (setLatch a u s).power = s.power := rfl
@[simp] theorem setLatch_keys (a : Aperture) (u : LatchUnit) (s : State) : (setLatch a u s).keys = s.keys := rfl
@[simp] theorem setLatch_entry (a : Aperture) (u : LatchUnit) (s : State) : (setLatch a u s).entry = s.entry := rfl
@[simp] theorem setLatch_inputs (a : Aperture) (u : LatchUnit) (s : State) : (setLatch a u s).inputs = s.inputs := rfl
@[simp] theorem setLatch_vehicle (a : Aperture) (u : LatchUnit) (s : State) : (setLatch a u s).vehicle = s.vehicle := rfl
@[simp] theorem setLatch_windows (a : Aperture) (u : LatchUnit) (s : State) : (setLatch a u s).windows = s.windows := rfl
@[simp] theorem setLatch_engine (a : Aperture) (u : LatchUnit) (s : State) : (setLatch a u s).engine = s.engine := rfl
@[simp] theorem setLatch_link (a : Aperture) (u : LatchUnit) (s : State) : (setLatch a u s).link = s.link := rfl
@[simp] theorem setLatch_sup (a : Aperture) (u : LatchUnit) (s : State) : (setLatch a u s).sup = s.sup := rfl
@[simp] theorem setLatch_store (a : Aperture) (u : LatchUnit) (s : State) : (setLatch a u s).store = s.store := rfl
@[simp] theorem setLatch_mail (a : Aperture) (u : LatchUnit) (s : State) : (setLatch a u s).mail = s.mail := rfl
@[simp] theorem setLatch_free (a : Aperture) (u : LatchUnit) (s : State) : (setLatch a u s).free = s.free := rfl
@[simp] theorem setLatch_pending (a : Aperture) (u : LatchUnit) (s : State) : (setLatch a u s).pending = s.pending := rfl

/-! ### setChild -/

@[simp] theorem setChild_now (r : Rear) (c : ChildLock) (s : State) : (setChild r c s).now = s.now := rfl
@[simp] theorem setChild_power (r : Rear) (c : ChildLock) (s : State) : (setChild r c s).power = s.power := rfl
@[simp] theorem setChild_keys (r : Rear) (c : ChildLock) (s : State) : (setChild r c s).keys = s.keys := rfl
@[simp] theorem setChild_entry (r : Rear) (c : ChildLock) (s : State) : (setChild r c s).entry = s.entry := rfl
@[simp] theorem setChild_inputs (r : Rear) (c : ChildLock) (s : State) : (setChild r c s).inputs = s.inputs := rfl
@[simp] theorem setChild_vehicle (r : Rear) (c : ChildLock) (s : State) : (setChild r c s).vehicle = s.vehicle := rfl
@[simp] theorem setChild_windows (r : Rear) (c : ChildLock) (s : State) : (setChild r c s).windows = s.windows := rfl
@[simp] theorem setChild_engine (r : Rear) (c : ChildLock) (s : State) : (setChild r c s).engine = s.engine := rfl
@[simp] theorem setChild_link (r : Rear) (c : ChildLock) (s : State) : (setChild r c s).link = s.link := rfl
@[simp] theorem setChild_sup (r : Rear) (c : ChildLock) (s : State) : (setChild r c s).sup = s.sup := rfl
@[simp] theorem setChild_store (r : Rear) (c : ChildLock) (s : State) : (setChild r c s).store = s.store := rfl
@[simp] theorem setChild_mail (r : Rear) (c : ChildLock) (s : State) : (setChild r c s).mail = s.mail := rfl
@[simp] theorem setChild_free (r : Rear) (c : ChildLock) (s : State) : (setChild r c s).free = s.free := rfl
@[simp] theorem setChild_pending (r : Rear) (c : ChildLock) (s : State) : (setChild r c s).pending = s.pending := rfl

/-! ### setWindow -/

@[simp] theorem setWindow_now (d : Door) (w : Window) (s : State) : (setWindow d w s).now = s.now := rfl
@[simp] theorem setWindow_power (d : Door) (w : Window) (s : State) : (setWindow d w s).power = s.power := rfl
@[simp] theorem setWindow_keys (d : Door) (w : Window) (s : State) : (setWindow d w s).keys = s.keys := rfl
@[simp] theorem setWindow_entry (d : Door) (w : Window) (s : State) : (setWindow d w s).entry = s.entry := rfl
@[simp] theorem setWindow_inputs (d : Door) (w : Window) (s : State) : (setWindow d w s).inputs = s.inputs := rfl
@[simp] theorem setWindow_vehicle (d : Door) (w : Window) (s : State) : (setWindow d w s).vehicle = s.vehicle := rfl
@[simp] theorem setWindow_latches (d : Door) (w : Window) (s : State) : (setWindow d w s).latches = s.latches := rfl
@[simp] theorem setWindow_engine (d : Door) (w : Window) (s : State) : (setWindow d w s).engine = s.engine := rfl
@[simp] theorem setWindow_link (d : Door) (w : Window) (s : State) : (setWindow d w s).link = s.link := rfl
@[simp] theorem setWindow_sup (d : Door) (w : Window) (s : State) : (setWindow d w s).sup = s.sup := rfl
@[simp] theorem setWindow_store (d : Door) (w : Window) (s : State) : (setWindow d w s).store = s.store := rfl
@[simp] theorem setWindow_mail (d : Door) (w : Window) (s : State) : (setWindow d w s).mail = s.mail := rfl
@[simp] theorem setWindow_free (d : Door) (w : Window) (s : State) : (setWindow d w s).free = s.free := rfl
@[simp] theorem setWindow_pending (d : Door) (w : Window) (s : State) : (setWindow d w s).pending = s.pending := rfl

/-! ### setKey -/

@[simp] theorem setKey_now (i : Fin 8) (k : KeyRecord) (s : State) : (setKey i k s).now = s.now := rfl
@[simp] theorem setKey_power (i : Fin 8) (k : KeyRecord) (s : State) : (setKey i k s).power = s.power := rfl
@[simp] theorem setKey_entry (i : Fin 8) (k : KeyRecord) (s : State) : (setKey i k s).entry = s.entry := rfl
@[simp] theorem setKey_inputs (i : Fin 8) (k : KeyRecord) (s : State) : (setKey i k s).inputs = s.inputs := rfl
@[simp] theorem setKey_vehicle (i : Fin 8) (k : KeyRecord) (s : State) : (setKey i k s).vehicle = s.vehicle := rfl
@[simp] theorem setKey_latches (i : Fin 8) (k : KeyRecord) (s : State) : (setKey i k s).latches = s.latches := rfl
@[simp] theorem setKey_windows (i : Fin 8) (k : KeyRecord) (s : State) : (setKey i k s).windows = s.windows := rfl
@[simp] theorem setKey_engine (i : Fin 8) (k : KeyRecord) (s : State) : (setKey i k s).engine = s.engine := rfl
@[simp] theorem setKey_link (i : Fin 8) (k : KeyRecord) (s : State) : (setKey i k s).link = s.link := rfl
@[simp] theorem setKey_sup (i : Fin 8) (k : KeyRecord) (s : State) : (setKey i k s).sup = s.sup := rfl
@[simp] theorem setKey_store (i : Fin 8) (k : KeyRecord) (s : State) : (setKey i k s).store = s.store := rfl
@[simp] theorem setKey_mail (i : Fin 8) (k : KeyRecord) (s : State) : (setKey i k s).mail = s.mail := rfl
@[simp] theorem setKey_free (i : Fin 8) (k : KeyRecord) (s : State) : (setKey i k s).free = s.free := rfl
@[simp] theorem setKey_pending (i : Fin 8) (k : KeyRecord) (s : State) : (setKey i k s).pending = s.pending := rfl

/-! ### setRun -/

@[simp] theorem setRun_now (t : Trigger) (r : Option Run) (s : State) : (setRun t r s).now = s.now := rfl
@[simp] theorem setRun_power (t : Trigger) (r : Option Run) (s : State) : (setRun t r s).power = s.power := rfl
@[simp] theorem setRun_keys (t : Trigger) (r : Option Run) (s : State) : (setRun t r s).keys = s.keys := rfl
@[simp] theorem setRun_entry (t : Trigger) (r : Option Run) (s : State) : (setRun t r s).entry = s.entry := rfl
@[simp] theorem setRun_inputs (t : Trigger) (r : Option Run) (s : State) : (setRun t r s).inputs = s.inputs := rfl
@[simp] theorem setRun_vehicle (t : Trigger) (r : Option Run) (s : State) : (setRun t r s).vehicle = s.vehicle := rfl
@[simp] theorem setRun_latches (t : Trigger) (r : Option Run) (s : State) : (setRun t r s).latches = s.latches := rfl
@[simp] theorem setRun_windows (t : Trigger) (r : Option Run) (s : State) : (setRun t r s).windows = s.windows := rfl
@[simp] theorem setRun_link (t : Trigger) (r : Option Run) (s : State) : (setRun t r s).link = s.link := rfl
@[simp] theorem setRun_sup (t : Trigger) (r : Option Run) (s : State) : (setRun t r s).sup = s.sup := rfl
@[simp] theorem setRun_store (t : Trigger) (r : Option Run) (s : State) : (setRun t r s).store = s.store := rfl
@[simp] theorem setRun_mail (t : Trigger) (r : Option Run) (s : State) : (setRun t r s).mail = s.mail := rfl
@[simp] theorem setRun_free (t : Trigger) (r : Option Run) (s : State) : (setRun t r s).free = s.free := rfl
@[simp] theorem setRun_pending (t : Trigger) (r : Option Run) (s : State) : (setRun t r s).pending = s.pending := rfl

/-! ### setContinue -/

@[simp] theorem setContinue_now (t : Trigger) (c : Option ContinuePoint) (s : State) : (setContinue t c s).now = s.now := rfl
@[simp] theorem setContinue_power (t : Trigger) (c : Option ContinuePoint) (s : State) : (setContinue t c s).power = s.power := rfl
@[simp] theorem setContinue_keys (t : Trigger) (c : Option ContinuePoint) (s : State) : (setContinue t c s).keys = s.keys := rfl
@[simp] theorem setContinue_entry (t : Trigger) (c : Option ContinuePoint) (s : State) : (setContinue t c s).entry = s.entry := rfl
@[simp] theorem setContinue_inputs (t : Trigger) (c : Option ContinuePoint) (s : State) : (setContinue t c s).inputs = s.inputs := rfl
@[simp] theorem setContinue_vehicle (t : Trigger) (c : Option ContinuePoint) (s : State) : (setContinue t c s).vehicle = s.vehicle := rfl
@[simp] theorem setContinue_latches (t : Trigger) (c : Option ContinuePoint) (s : State) : (setContinue t c s).latches = s.latches := rfl
@[simp] theorem setContinue_windows (t : Trigger) (c : Option ContinuePoint) (s : State) : (setContinue t c s).windows = s.windows := rfl
@[simp] theorem setContinue_link (t : Trigger) (c : Option ContinuePoint) (s : State) : (setContinue t c s).link = s.link := rfl
@[simp] theorem setContinue_sup (t : Trigger) (c : Option ContinuePoint) (s : State) : (setContinue t c s).sup = s.sup := rfl
@[simp] theorem setContinue_store (t : Trigger) (c : Option ContinuePoint) (s : State) : (setContinue t c s).store = s.store := rfl
@[simp] theorem setContinue_mail (t : Trigger) (c : Option ContinuePoint) (s : State) : (setContinue t c s).mail = s.mail := rfl
@[simp] theorem setContinue_free (t : Trigger) (c : Option ContinuePoint) (s : State) : (setContinue t c s).free = s.free := rfl
@[simp] theorem setContinue_pending (t : Trigger) (c : Option ContinuePoint) (s : State) : (setContinue t c s).pending = s.pending := rfl

/-! ### setRefire -/

@[simp] theorem setRefire_now (t : Trigger) (c : Option Carried) (s : State) : (setRefire t c s).now = s.now := rfl
@[simp] theorem setRefire_power (t : Trigger) (c : Option Carried) (s : State) : (setRefire t c s).power = s.power := rfl
@[simp] theorem setRefire_keys (t : Trigger) (c : Option Carried) (s : State) : (setRefire t c s).keys = s.keys := rfl
@[simp] theorem setRefire_entry (t : Trigger) (c : Option Carried) (s : State) : (setRefire t c s).entry = s.entry := rfl
@[simp] theorem setRefire_inputs (t : Trigger) (c : Option Carried) (s : State) : (setRefire t c s).inputs = s.inputs := rfl
@[simp] theorem setRefire_vehicle (t : Trigger) (c : Option Carried) (s : State) : (setRefire t c s).vehicle = s.vehicle := rfl
@[simp] theorem setRefire_latches (t : Trigger) (c : Option Carried) (s : State) : (setRefire t c s).latches = s.latches := rfl
@[simp] theorem setRefire_windows (t : Trigger) (c : Option Carried) (s : State) : (setRefire t c s).windows = s.windows := rfl
@[simp] theorem setRefire_link (t : Trigger) (c : Option Carried) (s : State) : (setRefire t c s).link = s.link := rfl
@[simp] theorem setRefire_sup (t : Trigger) (c : Option Carried) (s : State) : (setRefire t c s).sup = s.sup := rfl
@[simp] theorem setRefire_store (t : Trigger) (c : Option Carried) (s : State) : (setRefire t c s).store = s.store := rfl
@[simp] theorem setRefire_mail (t : Trigger) (c : Option Carried) (s : State) : (setRefire t c s).mail = s.mail := rfl
@[simp] theorem setRefire_free (t : Trigger) (c : Option Carried) (s : State) : (setRefire t c s).free = s.free := rfl
@[simp] theorem setRefire_pending (t : Trigger) (c : Option Carried) (s : State) : (setRefire t c s).pending = s.pending := rfl

/-! ### setStep -/

@[simp] theorem setStep_now (i : Fin 64) (c : StepCell) (s : State) : (setStep i c s).now = s.now := rfl
@[simp] theorem setStep_power (i : Fin 64) (c : StepCell) (s : State) : (setStep i c s).power = s.power := rfl
@[simp] theorem setStep_keys (i : Fin 64) (c : StepCell) (s : State) : (setStep i c s).keys = s.keys := rfl
@[simp] theorem setStep_entry (i : Fin 64) (c : StepCell) (s : State) : (setStep i c s).entry = s.entry := rfl
@[simp] theorem setStep_inputs (i : Fin 64) (c : StepCell) (s : State) : (setStep i c s).inputs = s.inputs := rfl
@[simp] theorem setStep_vehicle (i : Fin 64) (c : StepCell) (s : State) : (setStep i c s).vehicle = s.vehicle := rfl
@[simp] theorem setStep_latches (i : Fin 64) (c : StepCell) (s : State) : (setStep i c s).latches = s.latches := rfl
@[simp] theorem setStep_windows (i : Fin 64) (c : StepCell) (s : State) : (setStep i c s).windows = s.windows := rfl
@[simp] theorem setStep_link (i : Fin 64) (c : StepCell) (s : State) : (setStep i c s).link = s.link := rfl
@[simp] theorem setStep_sup (i : Fin 64) (c : StepCell) (s : State) : (setStep i c s).sup = s.sup := rfl
@[simp] theorem setStep_store (i : Fin 64) (c : StepCell) (s : State) : (setStep i c s).store = s.store := rfl
@[simp] theorem setStep_mail (i : Fin 64) (c : StepCell) (s : State) : (setStep i c s).mail = s.mail := rfl
@[simp] theorem setStep_free (i : Fin 64) (c : StepCell) (s : State) : (setStep i c s).free = s.free := rfl
@[simp] theorem setStep_pending (i : Fin 64) (c : StepCell) (s : State) : (setStep i c s).pending = s.pending := rfl

/-! ### setTrigger -/

@[simp] theorem setTrigger_now (t : Trigger) (x : TriggerStatic) (s : State) : (setTrigger t x s).now = s.now := rfl
@[simp] theorem setTrigger_power (t : Trigger) (x : TriggerStatic) (s : State) : (setTrigger t x s).power = s.power := rfl
@[simp] theorem setTrigger_keys (t : Trigger) (x : TriggerStatic) (s : State) : (setTrigger t x s).keys = s.keys := rfl
@[simp] theorem setTrigger_entry (t : Trigger) (x : TriggerStatic) (s : State) : (setTrigger t x s).entry = s.entry := rfl
@[simp] theorem setTrigger_inputs (t : Trigger) (x : TriggerStatic) (s : State) : (setTrigger t x s).inputs = s.inputs := rfl
@[simp] theorem setTrigger_vehicle (t : Trigger) (x : TriggerStatic) (s : State) : (setTrigger t x s).vehicle = s.vehicle := rfl
@[simp] theorem setTrigger_latches (t : Trigger) (x : TriggerStatic) (s : State) : (setTrigger t x s).latches = s.latches := rfl
@[simp] theorem setTrigger_windows (t : Trigger) (x : TriggerStatic) (s : State) : (setTrigger t x s).windows = s.windows := rfl
@[simp] theorem setTrigger_link (t : Trigger) (x : TriggerStatic) (s : State) : (setTrigger t x s).link = s.link := rfl
@[simp] theorem setTrigger_sup (t : Trigger) (x : TriggerStatic) (s : State) : (setTrigger t x s).sup = s.sup := rfl
@[simp] theorem setTrigger_store (t : Trigger) (x : TriggerStatic) (s : State) : (setTrigger t x s).store = s.store := rfl
@[simp] theorem setTrigger_mail (t : Trigger) (x : TriggerStatic) (s : State) : (setTrigger t x s).mail = s.mail := rfl
@[simp] theorem setTrigger_free (t : Trigger) (x : TriggerStatic) (s : State) : (setTrigger t x s).free = s.free := rfl
@[simp] theorem setTrigger_pending (t : Trigger) (x : TriggerStatic) (s : State) : (setTrigger t x s).pending = s.pending := rfl

/-! ### setInputs -/

@[simp] theorem setInputs_now (x : Inputs) (s : State) : (setInputs x s).now = s.now := rfl
@[simp] theorem setInputs_power (x : Inputs) (s : State) : (setInputs x s).power = s.power := rfl
@[simp] theorem setInputs_keys (x : Inputs) (s : State) : (setInputs x s).keys = s.keys := rfl
@[simp] theorem setInputs_entry (x : Inputs) (s : State) : (setInputs x s).entry = s.entry := rfl
@[simp] theorem setInputs_vehicle (x : Inputs) (s : State) : (setInputs x s).vehicle = s.vehicle := rfl
@[simp] theorem setInputs_latches (x : Inputs) (s : State) : (setInputs x s).latches = s.latches := rfl
@[simp] theorem setInputs_windows (x : Inputs) (s : State) : (setInputs x s).windows = s.windows := rfl
@[simp] theorem setInputs_engine (x : Inputs) (s : State) : (setInputs x s).engine = s.engine := rfl
@[simp] theorem setInputs_link (x : Inputs) (s : State) : (setInputs x s).link = s.link := rfl
@[simp] theorem setInputs_sup (x : Inputs) (s : State) : (setInputs x s).sup = s.sup := rfl
@[simp] theorem setInputs_store (x : Inputs) (s : State) : (setInputs x s).store = s.store := rfl
@[simp] theorem setInputs_mail (x : Inputs) (s : State) : (setInputs x s).mail = s.mail := rfl
@[simp] theorem setInputs_free (x : Inputs) (s : State) : (setInputs x s).free = s.free := rfl
@[simp] theorem setInputs_pending (x : Inputs) (s : State) : (setInputs x s).pending = s.pending := rfl

/-! ### setProcessing -/

@[simp] theorem setProcessing_now (p : Option Processing) (s : State) : (setProcessing p s).now = s.now := rfl
@[simp] theorem setProcessing_power (p : Option Processing) (s : State) : (setProcessing p s).power = s.power := rfl
@[simp] theorem setProcessing_keys (p : Option Processing) (s : State) : (setProcessing p s).keys = s.keys := rfl
@[simp] theorem setProcessing_inputs (p : Option Processing) (s : State) : (setProcessing p s).inputs = s.inputs := rfl
@[simp] theorem setProcessing_vehicle (p : Option Processing) (s : State) : (setProcessing p s).vehicle = s.vehicle := rfl
@[simp] theorem setProcessing_latches (p : Option Processing) (s : State) : (setProcessing p s).latches = s.latches := rfl
@[simp] theorem setProcessing_windows (p : Option Processing) (s : State) : (setProcessing p s).windows = s.windows := rfl
@[simp] theorem setProcessing_engine (p : Option Processing) (s : State) : (setProcessing p s).engine = s.engine := rfl
@[simp] theorem setProcessing_link (p : Option Processing) (s : State) : (setProcessing p s).link = s.link := rfl
@[simp] theorem setProcessing_sup (p : Option Processing) (s : State) : (setProcessing p s).sup = s.sup := rfl
@[simp] theorem setProcessing_store (p : Option Processing) (s : State) : (setProcessing p s).store = s.store := rfl
@[simp] theorem setProcessing_mail (p : Option Processing) (s : State) : (setProcessing p s).mail = s.mail := rfl
@[simp] theorem setProcessing_free (p : Option Processing) (s : State) : (setProcessing p s).free = s.free := rfl
@[simp] theorem setProcessing_pending (p : Option Processing) (s : State) : (setProcessing p s).pending = s.pending := rfl

/-! ### clockTo -/

@[simp] theorem clockTo_power (t : Nat) (s : State) : (clockTo t s).power = s.power := rfl
@[simp] theorem clockTo_keys (t : Nat) (s : State) : (clockTo t s).keys = s.keys := rfl
@[simp] theorem clockTo_entry (t : Nat) (s : State) : (clockTo t s).entry = s.entry := rfl
@[simp] theorem clockTo_inputs (t : Nat) (s : State) : (clockTo t s).inputs = s.inputs := rfl
@[simp] theorem clockTo_vehicle (t : Nat) (s : State) : (clockTo t s).vehicle = s.vehicle := rfl
@[simp] theorem clockTo_latches (t : Nat) (s : State) : (clockTo t s).latches = s.latches := rfl
@[simp] theorem clockTo_windows (t : Nat) (s : State) : (clockTo t s).windows = s.windows := rfl
@[simp] theorem clockTo_engine (t : Nat) (s : State) : (clockTo t s).engine = s.engine := rfl
@[simp] theorem clockTo_link (t : Nat) (s : State) : (clockTo t s).link = s.link := rfl
@[simp] theorem clockTo_sup (t : Nat) (s : State) : (clockTo t s).sup = s.sup := rfl
@[simp] theorem clockTo_store (t : Nat) (s : State) : (clockTo t s).store = s.store := rfl
@[simp] theorem clockTo_mail (t : Nat) (s : State) : (clockTo t s).mail = s.mail := rfl
@[simp] theorem clockTo_free (t : Nat) (s : State) : (clockTo t s).free = s.free := rfl
@[simp] theorem clockTo_pending (t : Nat) (s : State) : (clockTo t s).pending = s.pending := rfl

/-! ### raise -/

@[simp] theorem raise_now (f : AttentionFlag) (s : State) : (raise f s).now = s.now := rfl
@[simp] theorem raise_power (f : AttentionFlag) (s : State) : (raise f s).power = s.power := rfl
@[simp] theorem raise_keys (f : AttentionFlag) (s : State) : (raise f s).keys = s.keys := rfl
@[simp] theorem raise_entry (f : AttentionFlag) (s : State) : (raise f s).entry = s.entry := rfl
@[simp] theorem raise_inputs (f : AttentionFlag) (s : State) : (raise f s).inputs = s.inputs := rfl
@[simp] theorem raise_vehicle (f : AttentionFlag) (s : State) : (raise f s).vehicle = s.vehicle := rfl
@[simp] theorem raise_latches (f : AttentionFlag) (s : State) : (raise f s).latches = s.latches := rfl
@[simp] theorem raise_windows (f : AttentionFlag) (s : State) : (raise f s).windows = s.windows := rfl
@[simp] theorem raise_engine (f : AttentionFlag) (s : State) : (raise f s).engine = s.engine := rfl
@[simp] theorem raise_sup (f : AttentionFlag) (s : State) : (raise f s).sup = s.sup := rfl
@[simp] theorem raise_store (f : AttentionFlag) (s : State) : (raise f s).store = s.store := rfl
@[simp] theorem raise_mail (f : AttentionFlag) (s : State) : (raise f s).mail = s.mail := rfl
@[simp] theorem raise_free (f : AttentionFlag) (s : State) : (raise f s).free = s.free := rfl
@[simp] theorem raise_pending (f : AttentionFlag) (s : State) : (raise f s).pending = s.pending := rfl

/-! ### reply -/

@[simp] theorem reply_now (st : Status) (p : List Byte) (s : State) : (reply st p s).now = s.now := rfl
@[simp] theorem reply_power (st : Status) (p : List Byte) (s : State) : (reply st p s).power = s.power := rfl
@[simp] theorem reply_keys (st : Status) (p : List Byte) (s : State) : (reply st p s).keys = s.keys := rfl
@[simp] theorem reply_entry (st : Status) (p : List Byte) (s : State) : (reply st p s).entry = s.entry := rfl
@[simp] theorem reply_inputs (st : Status) (p : List Byte) (s : State) : (reply st p s).inputs = s.inputs := rfl
@[simp] theorem reply_vehicle (st : Status) (p : List Byte) (s : State) : (reply st p s).vehicle = s.vehicle := rfl
@[simp] theorem reply_latches (st : Status) (p : List Byte) (s : State) : (reply st p s).latches = s.latches := rfl
@[simp] theorem reply_windows (st : Status) (p : List Byte) (s : State) : (reply st p s).windows = s.windows := rfl
@[simp] theorem reply_engine (st : Status) (p : List Byte) (s : State) : (reply st p s).engine = s.engine := rfl
@[simp] theorem reply_sup (st : Status) (p : List Byte) (s : State) : (reply st p s).sup = s.sup := rfl
@[simp] theorem reply_store (st : Status) (p : List Byte) (s : State) : (reply st p s).store = s.store := rfl
@[simp] theorem reply_mail (st : Status) (p : List Byte) (s : State) : (reply st p s).mail = s.mail := rfl
@[simp] theorem reply_free (st : Status) (p : List Byte) (s : State) : (reply st p s).free = s.free := rfl
@[simp] theorem reply_pending (st : Status) (p : List Byte) (s : State) : (reply st p s).pending = s.pending := rfl

/-! ### offer -/

@[simp] theorem offer_now (id : RecordId) (c : Content) (w : List WriteWaiter) (s : State) : (offer id c w s).now = s.now := rfl
@[simp] theorem offer_power (id : RecordId) (c : Content) (w : List WriteWaiter) (s : State) : (offer id c w s).power = s.power := rfl
@[simp] theorem offer_keys (id : RecordId) (c : Content) (w : List WriteWaiter) (s : State) : (offer id c w s).keys = s.keys := rfl
@[simp] theorem offer_entry (id : RecordId) (c : Content) (w : List WriteWaiter) (s : State) : (offer id c w s).entry = s.entry := rfl
@[simp] theorem offer_inputs (id : RecordId) (c : Content) (w : List WriteWaiter) (s : State) : (offer id c w s).inputs = s.inputs := rfl
@[simp] theorem offer_vehicle (id : RecordId) (c : Content) (w : List WriteWaiter) (s : State) : (offer id c w s).vehicle = s.vehicle := rfl
@[simp] theorem offer_latches (id : RecordId) (c : Content) (w : List WriteWaiter) (s : State) : (offer id c w s).latches = s.latches := rfl
@[simp] theorem offer_windows (id : RecordId) (c : Content) (w : List WriteWaiter) (s : State) : (offer id c w s).windows = s.windows := rfl
@[simp] theorem offer_engine (id : RecordId) (c : Content) (w : List WriteWaiter) (s : State) : (offer id c w s).engine = s.engine := rfl
@[simp] theorem offer_link (id : RecordId) (c : Content) (w : List WriteWaiter) (s : State) : (offer id c w s).link = s.link := rfl
@[simp] theorem offer_sup (id : RecordId) (c : Content) (w : List WriteWaiter) (s : State) : (offer id c w s).sup = s.sup := rfl
@[simp] theorem offer_mail (id : RecordId) (c : Content) (w : List WriteWaiter) (s : State) : (offer id c w s).mail = s.mail := rfl
@[simp] theorem offer_free (id : RecordId) (c : Content) (w : List WriteWaiter) (s : State) : (offer id c w s).free = s.free := rfl
@[simp] theorem offer_pending (id : RecordId) (c : Content) (w : List WriteWaiter) (s : State) : (offer id c w s).pending = s.pending := rfl

/-! ### driveHigh -/

@[simp] theorem driveHigh_now (n : Nat) (s : State) : (driveHigh n s).now = s.now := rfl
@[simp] theorem driveHigh_power (n : Nat) (s : State) : (driveHigh n s).power = s.power := rfl
@[simp] theorem driveHigh_keys (n : Nat) (s : State) : (driveHigh n s).keys = s.keys := rfl
@[simp] theorem driveHigh_entry (n : Nat) (s : State) : (driveHigh n s).entry = s.entry := rfl
@[simp] theorem driveHigh_inputs (n : Nat) (s : State) : (driveHigh n s).inputs = s.inputs := rfl
@[simp] theorem driveHigh_vehicle (n : Nat) (s : State) : (driveHigh n s).vehicle = s.vehicle := rfl
@[simp] theorem driveHigh_latches (n : Nat) (s : State) : (driveHigh n s).latches = s.latches := rfl
@[simp] theorem driveHigh_windows (n : Nat) (s : State) : (driveHigh n s).windows = s.windows := rfl
@[simp] theorem driveHigh_engine (n : Nat) (s : State) : (driveHigh n s).engine = s.engine := rfl
@[simp] theorem driveHigh_sup (n : Nat) (s : State) : (driveHigh n s).sup = s.sup := rfl
@[simp] theorem driveHigh_store (n : Nat) (s : State) : (driveHigh n s).store = s.store := rfl
@[simp] theorem driveHigh_mail (n : Nat) (s : State) : (driveHigh n s).mail = s.mail := rfl
@[simp] theorem driveHigh_free (n : Nat) (s : State) : (driveHigh n s).free = s.free := rfl
@[simp] theorem driveHigh_pending (n : Nat) (s : State) : (driveHigh n s).pending = s.pending := rfl

/-! ### openRequest -/

@[simp] theorem openRequest_now (s : State) : (openRequest s).now = s.now := rfl
@[simp] theorem openRequest_power (s : State) : (openRequest s).power = s.power := rfl
@[simp] theorem openRequest_keys (s : State) : (openRequest s).keys = s.keys := rfl
@[simp] theorem openRequest_entry (s : State) : (openRequest s).entry = s.entry := rfl
@[simp] theorem openRequest_inputs (s : State) : (openRequest s).inputs = s.inputs := rfl
@[simp] theorem openRequest_vehicle (s : State) : (openRequest s).vehicle = s.vehicle := rfl
@[simp] theorem openRequest_latches (s : State) : (openRequest s).latches = s.latches := rfl
@[simp] theorem openRequest_windows (s : State) : (openRequest s).windows = s.windows := rfl
@[simp] theorem openRequest_engine (s : State) : (openRequest s).engine = s.engine := rfl
@[simp] theorem openRequest_store (s : State) : (openRequest s).store = s.store := rfl
@[simp] theorem openRequest_mail (s : State) : (openRequest s).mail = s.mail := rfl
@[simp] theorem openRequest_free (s : State) : (openRequest s).free = s.free := rfl
@[simp] theorem openRequest_pending (s : State) : (openRequest s).pending = s.pending := rfl

/-! ### markOverrun -/

@[simp] theorem markOverrun_now (s : State) : (markOverrun s).now = s.now := rfl
@[simp] theorem markOverrun_power (s : State) : (markOverrun s).power = s.power := rfl
@[simp] theorem markOverrun_keys (s : State) : (markOverrun s).keys = s.keys := rfl
@[simp] theorem markOverrun_entry (s : State) : (markOverrun s).entry = s.entry := rfl
@[simp] theorem markOverrun_inputs (s : State) : (markOverrun s).inputs = s.inputs := rfl
@[simp] theorem markOverrun_vehicle (s : State) : (markOverrun s).vehicle = s.vehicle := rfl
@[simp] theorem markOverrun_latches (s : State) : (markOverrun s).latches = s.latches := rfl
@[simp] theorem markOverrun_windows (s : State) : (markOverrun s).windows = s.windows := rfl
@[simp] theorem markOverrun_engine (s : State) : (markOverrun s).engine = s.engine := rfl
@[simp] theorem markOverrun_sup (s : State) : (markOverrun s).sup = s.sup := rfl
@[simp] theorem markOverrun_store (s : State) : (markOverrun s).store = s.store := rfl
@[simp] theorem markOverrun_mail (s : State) : (markOverrun s).mail = s.mail := rfl
@[simp] theorem markOverrun_free (s : State) : (markOverrun s).free = s.free := rfl
@[simp] theorem markOverrun_pending (s : State) : (markOverrun s).pending = s.pending := rfl

/-! ### restartSilence -/

@[simp] theorem restartSilence_now (s : State) : (restartSilence s).now = s.now := rfl
@[simp] theorem restartSilence_power (s : State) : (restartSilence s).power = s.power := rfl
@[simp] theorem restartSilence_keys (s : State) : (restartSilence s).keys = s.keys := rfl
@[simp] theorem restartSilence_entry (s : State) : (restartSilence s).entry = s.entry := rfl
@[simp] theorem restartSilence_inputs (s : State) : (restartSilence s).inputs = s.inputs := rfl
@[simp] theorem restartSilence_vehicle (s : State) : (restartSilence s).vehicle = s.vehicle := rfl
@[simp] theorem restartSilence_latches (s : State) : (restartSilence s).latches = s.latches := rfl
@[simp] theorem restartSilence_windows (s : State) : (restartSilence s).windows = s.windows := rfl
@[simp] theorem restartSilence_engine (s : State) : (restartSilence s).engine = s.engine := rfl
@[simp] theorem restartSilence_link (s : State) : (restartSilence s).link = s.link := rfl
@[simp] theorem restartSilence_store (s : State) : (restartSilence s).store = s.store := rfl
@[simp] theorem restartSilence_mail (s : State) : (restartSilence s).mail = s.mail := rfl
@[simp] theorem restartSilence_free (s : State) : (restartSilence s).free = s.free := rfl
@[simp] theorem restartSilence_pending (s : State) : (restartSilence s).pending = s.pending := rfl

/-! ### Parts of an updated field -/

@[simp] theorem setLatch_latches_pulse (a : Aperture) (u : LatchUnit) (s : State) : (setLatch a u s).latches.pulse = s.latches.pulse := rfl
@[simp] theorem setLatch_latches_interval (a : Aperture) (u : LatchUnit) (s : State) : (setLatch a u s).latches.interval = s.latches.interval := rfl
@[simp] theorem setLatch_latches_crashHold (a : Aperture) (u : LatchUnit) (s : State) : (setLatch a u s).latches.crashHold = s.latches.crashHold := rfl
@[simp] theorem setLatch_latches_crashPending (a : Aperture) (u : LatchUnit) (s : State) : (setLatch a u s).latches.crashPending = s.latches.crashPending := rfl
@[simp] theorem setLatch_latches_deferred (a : Aperture) (u : LatchUnit) (s : State) : (setLatch a u s).latches.deferred = s.latches.deferred := rfl
@[simp] theorem setLatch_latches_child (a : Aperture) (u : LatchUnit) (s : State) : (setLatch a u s).latches.child = s.latches.child := rfl
@[simp] theorem setChild_latches_pulse (r : Rear) (c : ChildLock) (s : State) : (setChild r c s).latches.pulse = s.latches.pulse := rfl
@[simp] theorem setChild_latches_interval (r : Rear) (c : ChildLock) (s : State) : (setChild r c s).latches.interval = s.latches.interval := rfl
@[simp] theorem setChild_latches_crashHold (r : Rear) (c : ChildLock) (s : State) : (setChild r c s).latches.crashHold = s.latches.crashHold := rfl
@[simp] theorem setChild_latches_crashPending (r : Rear) (c : ChildLock) (s : State) : (setChild r c s).latches.crashPending = s.latches.crashPending := rfl
@[simp] theorem setChild_latches_deferred (r : Rear) (c : ChildLock) (s : State) : (setChild r c s).latches.deferred = s.latches.deferred := rfl
@[simp] theorem setChild_latches_unit (r : Rear) (c : ChildLock) (s : State) : (setChild r c s).latches.unit = s.latches.unit := rfl
@[simp] theorem raise_link_state (f : AttentionFlag) (s : State) : (raise f s).link.state = s.link.state := rfl
@[simp] theorem raise_link_overrun (f : AttentionFlag) (s : State) : (raise f s).link.overrun = s.link.overrun := rfl
@[simp] theorem raise_link_dataOut (f : AttentionFlag) (s : State) : (raise f s).link.dataOut = s.link.dataOut := rfl
@[simp] theorem raise_link_settings (f : AttentionFlag) (s : State) : (raise f s).link.settings = s.link.settings := rfl
@[simp] theorem raise_link_mask (f : AttentionFlag) (s : State) : (raise f s).link.mask = s.link.mask := rfl
@[simp] theorem reply_link_dataOut (st : Status) (p : List Byte) (s : State) : (reply st p s).link.dataOut = s.link.dataOut := rfl
@[simp] theorem reply_link_settings (st : Status) (p : List Byte) (s : State) : (reply st p s).link.settings = s.link.settings := rfl
@[simp] theorem reply_link_flags (st : Status) (p : List Byte) (s : State) : (reply st p s).link.flags = s.link.flags := rfl
@[simp] theorem reply_link_mask (st : Status) (p : List Byte) (s : State) : (reply st p s).link.mask = s.link.mask := rfl
@[simp] theorem openRequest_link_overrun (s : State) : (openRequest s).link.overrun = s.link.overrun := rfl
@[simp] theorem openRequest_link_dataOut (s : State) : (openRequest s).link.dataOut = s.link.dataOut := rfl
@[simp] theorem openRequest_link_settings (s : State) : (openRequest s).link.settings = s.link.settings := rfl
@[simp] theorem openRequest_link_flags (s : State) : (openRequest s).link.flags = s.link.flags := rfl
@[simp] theorem openRequest_link_mask (s : State) : (openRequest s).link.mask = s.link.mask := rfl
@[simp] theorem openRequest_sup_mode (s : State) : (openRequest s).sup.mode = s.sup.mode := rfl
@[simp] theorem openRequest_sup_silence (s : State) : (openRequest s).sup.silence = s.sup.silence := rfl
@[simp] theorem openRequest_sup_wakeCauses (s : State) : (openRequest s).sup.wakeCauses = s.sup.wakeCauses := rfl
@[simp] theorem openRequest_sup_wakeout (s : State) : (openRequest s).sup.wakeout = s.sup.wakeout := rfl
@[simp] theorem openRequest_sup_resetCause (s : State) : (openRequest s).sup.resetCause = s.sup.resetCause := rfl
@[simp] theorem driveHigh_link_state (n : Nat) (s : State) : (driveHigh n s).link.state = s.link.state := rfl
@[simp] theorem driveHigh_link_overrun (n : Nat) (s : State) : (driveHigh n s).link.overrun = s.link.overrun := rfl
@[simp] theorem driveHigh_link_settings (n : Nat) (s : State) : (driveHigh n s).link.settings = s.link.settings := rfl
@[simp] theorem driveHigh_link_flags (n : Nat) (s : State) : (driveHigh n s).link.flags = s.link.flags := rfl
@[simp] theorem driveHigh_link_mask (n : Nat) (s : State) : (driveHigh n s).link.mask = s.link.mask := rfl
@[simp] theorem offer_store_flash (id : RecordId) (c : Content) (w : List WriteWaiter) (s : State) : (offer id c w s).store.flash = s.store.flash := rfl
@[simp] theorem offer_store_scanDone (id : RecordId) (c : Content) (w : List WriteWaiter) (s : State) : (offer id c w s).store.scanDone = s.store.scanDone := rfl
@[simp] theorem offer_store_inFlight (id : RecordId) (c : Content) (w : List WriteWaiter) (s : State) : (offer id c w s).store.inFlight = s.store.inFlight := rfl
@[simp] theorem offer_store_damage (id : RecordId) (c : Content) (w : List WriteWaiter) (s : State) : (offer id c w s).store.damage = s.store.damage := rfl
@[simp] theorem setKey_keys_window (i : Fin 8) (k : KeyRecord) (s : State) : (setKey i k s).keys.window = s.keys.window := rfl
@[simp] theorem setKey_keys_waiting (i : Fin 8) (k : KeyRecord) (s : State) : (setKey i k s).keys.waiting = s.keys.waiting := rfl
@[simp] theorem restartSilence_sup_mode (s : State) : (restartSilence s).sup.mode = s.sup.mode := rfl
@[simp] theorem restartSilence_sup_wakeCauses (s : State) : (restartSilence s).sup.wakeCauses = s.sup.wakeCauses := rfl
@[simp] theorem restartSilence_sup_wakeout (s : State) : (restartSilence s).sup.wakeout = s.sup.wakeout := rfl
@[simp] theorem restartSilence_sup_resetCause (s : State) : (restartSilence s).sup.resetCause = s.sup.resetCause := rfl
@[simp] theorem restartSilence_sup_pendingReset (s : State) : (restartSilence s).sup.pendingReset = s.sup.pendingReset := rfl
@[simp] theorem setProcessing_entry_rfQueue (p : Option Processing) (s : State) : (setProcessing p s).entry.rfQueue = s.entry.rfQueue := rfl
@[simp] theorem setProcessing_entry_queue (p : Option Processing) (s : State) : (setProcessing p s).entry.queue = s.entry.queue := rfl
@[simp] theorem setProcessing_entry_search (p : Option Processing) (s : State) : (setProcessing p s).entry.search = s.entry.search := rfl
@[simp] theorem setProcessing_entry_access (p : Option Processing) (s : State) : (setProcessing p s).entry.access = s.entry.access := rfl
@[simp] theorem setRun_engine_steps (t : Trigger) (r : Option Run) (s : State) : (setRun t r s).engine.steps = s.engine.steps := rfl
@[simp] theorem setRun_engine_triggers (t : Trigger) (r : Option Run) (s : State) : (setRun t r s).engine.triggers = s.engine.triggers := rfl
@[simp] theorem setRun_engine_continuePoints (t : Trigger) (r : Option Run) (s : State) : (setRun t r s).engine.continuePoints = s.engine.continuePoints := rfl
@[simp] theorem setRun_engine_refires (t : Trigger) (r : Option Run) (s : State) : (setRun t r s).engine.refires = s.engine.refires := rfl
@[simp] theorem setRun_engine_nextSerial (t : Trigger) (r : Option Run) (s : State) : (setRun t r s).engine.nextSerial = s.engine.nextSerial := rfl
@[simp] theorem setRun_engine_armed (t : Trigger) (r : Option Run) (s : State) : (setRun t r s).engine.armed = s.engine.armed := rfl
@[simp] theorem setRun_engine_relock (t : Trigger) (r : Option Run) (s : State) : (setRun t r s).engine.relock = s.engine.relock := rfl
@[simp] theorem setRun_engine_latest (t : Trigger) (r : Option Run) (s : State) : (setRun t r s).engine.latest = s.engine.latest := rfl
@[simp] theorem setRun_engine_defaulting (t : Trigger) (r : Option Run) (s : State) : (setRun t r s).engine.defaulting = s.engine.defaulting := rfl
@[simp] theorem setContinue_engine_steps (t : Trigger) (c : Option ContinuePoint) (s : State) : (setContinue t c s).engine.steps = s.engine.steps := rfl
@[simp] theorem setContinue_engine_triggers (t : Trigger) (c : Option ContinuePoint) (s : State) : (setContinue t c s).engine.triggers = s.engine.triggers := rfl
@[simp] theorem setContinue_engine_refires (t : Trigger) (c : Option ContinuePoint) (s : State) : (setContinue t c s).engine.refires = s.engine.refires := rfl
@[simp] theorem setContinue_engine_runs (t : Trigger) (c : Option ContinuePoint) (s : State) : (setContinue t c s).engine.runs = s.engine.runs := rfl
@[simp] theorem setContinue_engine_nextSerial (t : Trigger) (c : Option ContinuePoint) (s : State) : (setContinue t c s).engine.nextSerial = s.engine.nextSerial := rfl
@[simp] theorem setContinue_engine_armed (t : Trigger) (c : Option ContinuePoint) (s : State) : (setContinue t c s).engine.armed = s.engine.armed := rfl
@[simp] theorem setContinue_engine_relock (t : Trigger) (c : Option ContinuePoint) (s : State) : (setContinue t c s).engine.relock = s.engine.relock := rfl
@[simp] theorem setContinue_engine_latest (t : Trigger) (c : Option ContinuePoint) (s : State) : (setContinue t c s).engine.latest = s.engine.latest := rfl
@[simp] theorem setContinue_engine_defaulting (t : Trigger) (c : Option ContinuePoint) (s : State) : (setContinue t c s).engine.defaulting = s.engine.defaulting := rfl
@[simp] theorem setRefire_engine_steps (t : Trigger) (c : Option Carried) (s : State) : (setRefire t c s).engine.steps = s.engine.steps := rfl
@[simp] theorem setRefire_engine_triggers (t : Trigger) (c : Option Carried) (s : State) : (setRefire t c s).engine.triggers = s.engine.triggers := rfl
@[simp] theorem setRefire_engine_continuePoints (t : Trigger) (c : Option Carried) (s : State) : (setRefire t c s).engine.continuePoints = s.engine.continuePoints := rfl
@[simp] theorem setRefire_engine_runs (t : Trigger) (c : Option Carried) (s : State) : (setRefire t c s).engine.runs = s.engine.runs := rfl
@[simp] theorem setRefire_engine_nextSerial (t : Trigger) (c : Option Carried) (s : State) : (setRefire t c s).engine.nextSerial = s.engine.nextSerial := rfl
@[simp] theorem setRefire_engine_armed (t : Trigger) (c : Option Carried) (s : State) : (setRefire t c s).engine.armed = s.engine.armed := rfl
@[simp] theorem setRefire_engine_relock (t : Trigger) (c : Option Carried) (s : State) : (setRefire t c s).engine.relock = s.engine.relock := rfl
@[simp] theorem setRefire_engine_latest (t : Trigger) (c : Option Carried) (s : State) : (setRefire t c s).engine.latest = s.engine.latest := rfl
@[simp] theorem setRefire_engine_defaulting (t : Trigger) (c : Option Carried) (s : State) : (setRefire t c s).engine.defaulting = s.engine.defaulting := rfl
@[simp] theorem setStep_engine_triggers (i : Fin 64) (c : StepCell) (s : State) : (setStep i c s).engine.triggers = s.engine.triggers := rfl
@[simp] theorem setStep_engine_continuePoints (i : Fin 64) (c : StepCell) (s : State) : (setStep i c s).engine.continuePoints = s.engine.continuePoints := rfl
@[simp] theorem setStep_engine_refires (i : Fin 64) (c : StepCell) (s : State) : (setStep i c s).engine.refires = s.engine.refires := rfl
@[simp] theorem setStep_engine_runs (i : Fin 64) (c : StepCell) (s : State) : (setStep i c s).engine.runs = s.engine.runs := rfl
@[simp] theorem setStep_engine_nextSerial (i : Fin 64) (c : StepCell) (s : State) : (setStep i c s).engine.nextSerial = s.engine.nextSerial := rfl
@[simp] theorem setStep_engine_armed (i : Fin 64) (c : StepCell) (s : State) : (setStep i c s).engine.armed = s.engine.armed := rfl
@[simp] theorem setStep_engine_relock (i : Fin 64) (c : StepCell) (s : State) : (setStep i c s).engine.relock = s.engine.relock := rfl
@[simp] theorem setStep_engine_latest (i : Fin 64) (c : StepCell) (s : State) : (setStep i c s).engine.latest = s.engine.latest := rfl
@[simp] theorem setStep_engine_defaulting (i : Fin 64) (c : StepCell) (s : State) : (setStep i c s).engine.defaulting = s.engine.defaulting := rfl
@[simp] theorem setTrigger_engine_steps (t : Trigger) (x : TriggerStatic) (s : State) : (setTrigger t x s).engine.steps = s.engine.steps := rfl
@[simp] theorem setTrigger_engine_continuePoints (t : Trigger) (x : TriggerStatic) (s : State) : (setTrigger t x s).engine.continuePoints = s.engine.continuePoints := rfl
@[simp] theorem setTrigger_engine_refires (t : Trigger) (x : TriggerStatic) (s : State) : (setTrigger t x s).engine.refires = s.engine.refires := rfl
@[simp] theorem setTrigger_engine_runs (t : Trigger) (x : TriggerStatic) (s : State) : (setTrigger t x s).engine.runs = s.engine.runs := rfl
@[simp] theorem setTrigger_engine_nextSerial (t : Trigger) (x : TriggerStatic) (s : State) : (setTrigger t x s).engine.nextSerial = s.engine.nextSerial := rfl
@[simp] theorem setTrigger_engine_armed (t : Trigger) (x : TriggerStatic) (s : State) : (setTrigger t x s).engine.armed = s.engine.armed := rfl
@[simp] theorem setTrigger_engine_relock (t : Trigger) (x : TriggerStatic) (s : State) : (setTrigger t x s).engine.relock = s.engine.relock := rfl
@[simp] theorem setTrigger_engine_latest (t : Trigger) (x : TriggerStatic) (s : State) : (setTrigger t x s).engine.latest = s.engine.latest := rfl
@[simp] theorem setTrigger_engine_defaulting (t : Trigger) (x : TriggerStatic) (s : State) : (setTrigger t x s).engine.defaulting = s.engine.defaulting := rfl

/-! ### The reply and the clock -/

@[simp] theorem reply_link_state (st : Status) (p : List Byte) (s : State) :
    (reply st p s).link.state = .replyReady { status := st, overrun := s.link.overrun, payload := p } := rfl

@[simp] theorem reply_link_overrun (st : Status) (p : List Byte) (s : State) : (reply st p s).link.overrun = false := rfl

@[simp] theorem clockTo_now (t : Nat) (s : State) : (clockTo t s).now = max s.now t := rfl

@[simp] theorem setInputs_inputs (x : Inputs) (s : State) : (setInputs x s).inputs = x := rfl

@[simp] theorem setProcessing_entry_processing (p : Option Processing) (s : State) :
    (setProcessing p s).entry.processing = p := rfl

/-! ### Flags -/

/-- A flag raised is in the set. -/
@[simp] theorem raised_raise (f : AttentionFlag) (s : State) : raised f (raise f s) = true := by
  simp only [raised, raise, bne_iff_ne]
  intro h
  have k := congrArg (fun x : BitVec 16 => x.getLsbD (flagBit f)) h
  cases f <;> simp [flagMask, flagBit] at k

/-! ### Outcomes told: only the mail grows -/

theorem tell_eq (r : Requester) (g : List Tag) (a : Aperture) (o : Tag → OpOutcome) (s : State) :
    tell r g a o s = { s with mail := (tell r g a o s).mail } := by
  unfold tell; split <;> rfl

@[simp] theorem tell_inputs (r : Requester) (g : List Tag) (a : Aperture) (o : Tag → OpOutcome) (s : State) :
    (tell r g a o s).inputs = s.inputs := by rw [tell_eq]

@[simp] theorem tell_latches (r : Requester) (g : List Tag) (a : Aperture) (o : Tag → OpOutcome) (s : State) :
    (tell r g a o s).latches = s.latches := by rw [tell_eq]

@[simp] theorem tell_windows (r : Requester) (g : List Tag) (a : Aperture) (o : Tag → OpOutcome) (s : State) :
    (tell r g a o s).windows = s.windows := by rw [tell_eq]

@[simp] theorem tell_engine (r : Requester) (g : List Tag) (a : Aperture) (o : Tag → OpOutcome) (s : State) :
    (tell r g a o s).engine = s.engine := by rw [tell_eq]

@[simp] theorem tell_link (r : Requester) (g : List Tag) (a : Aperture) (o : Tag → OpOutcome) (s : State) :
    (tell r g a o s).link = s.link := by rw [tell_eq]

@[simp] theorem tell_store (r : Requester) (g : List Tag) (a : Aperture) (o : Tag → OpOutcome) (s : State) :
    (tell r g a o s).store = s.store := by rw [tell_eq]

@[simp] theorem tell_entry (r : Requester) (g : List Tag) (a : Aperture) (o : Tag → OpOutcome) (s : State) :
    (tell r g a o s).entry = s.entry := by rw [tell_eq]

/-- A chain's parties each find their outcome in the mail. -/
theorem tell_chain (t : Trigger) (l : List Tag) (a : Aperture) (o : Tag → OpOutcome) (s : State) {g : Tag}
    (h : g ∈ l) : { trigger := t, serial := g.serial, count := g.count, aperture := a, outcome := o g } ∈
      (tell (.chain t) l a o s).mail := by
  unfold tell
  exact List.mem_append_right _ (List.mem_map.2 ⟨g, h, rfl⟩)

/-! ### The link's own fields -/

@[simp] theorem openRequest_link_state (s : State) : (openRequest s).link.state = .working := rfl

@[simp] theorem openRequest_sup_pendingReset (s : State) : (openRequest s).sup.pendingReset = false := rfl

end Sys2Proof.Machine
end

