-- ==== Sys2Proof/Laws/Link.lean ====
section
/-! SUPPORT. What a host request comes to: taken, turned away, or not heard; and what being taken changes. -/

namespace Sys2Proof.Machine

open Sys2Proof

/-! ### What a frame's arrival touches: the engine's arming mark, flags and data out, the Supervision Unit -/

theorem wake_eq (w : WakeSource) (s : State) :
    wake w s = { s with link := (wake w s).link, sup := (wake w s).sup } := by
  unfold wake; split <;> rfl

@[simp] theorem wake_link_state (w : WakeSource) (s : State) : (wake w s).link.state = s.link.state := by
  unfold wake; split <;> rfl

@[simp] theorem wake_link_overrun (w : WakeSource) (s : State) : (wake w s).link.overrun = s.link.overrun := by
  unfold wake; split <;> rfl

@[simp] theorem wake_link_settings (w : WakeSource) (s : State) : (wake w s).link.settings = s.link.settings := by
  unfold wake; split <;> rfl

@[simp] theorem wake_link_mask (w : WakeSource) (s : State) : (wake w s).link.mask = s.link.mask := by
  unfold wake; split <;> rfl

@[simp] theorem wake_sup_resetCause (w : WakeSource) (s : State) : (wake w s).sup.resetCause = s.sup.resetCause := by
  unfold wake; split <;> rfl

@[simp] theorem wake_sup_pendingReset (w : WakeSource) (s : State) :
    (wake w s).sup.pendingReset = s.sup.pendingReset := by
  unfold wake; split <;> rfl

/-- A wake leaves the part in ACTIVE or AUTONOMOUS. -/
theorem wake_mode (w : WakeSource) (s : State) : (wake w s).sup.mode ≠ .parked := by
  unfold wake
  split
  · simp [restartSilence, raise]
  · assumption

theorem returnToActive_mode {s : State} (h : s.sup.mode ≠ .parked) : (returnToActive s).sup.mode = .active := by
  unfold returnToActive
  split
  · rfl
  · revert h; cases hm : s.sup.mode <;> simp_all


@[simp] theorem wake_now (w : WakeSource) (s : State) : (wake w s).now = s.now := by
  unfold wake; split <;> rfl

@[simp] theorem wake_power (w : WakeSource) (s : State) : (wake w s).power = s.power := by
  unfold wake; split <;> rfl

@[simp] theorem wake_keys (w : WakeSource) (s : State) : (wake w s).keys = s.keys := by
  unfold wake; split <;> rfl

@[simp] theorem wake_entry (w : WakeSource) (s : State) : (wake w s).entry = s.entry := by
  unfold wake; split <;> rfl

@[simp] theorem wake_inputs (w : WakeSource) (s : State) : (wake w s).inputs = s.inputs := by
  unfold wake; split <;> rfl

@[simp] theorem wake_vehicle (w : WakeSource) (s : State) : (wake w s).vehicle = s.vehicle := by
  unfold wake; split <;> rfl

@[simp] theorem wake_latches (w : WakeSource) (s : State) : (wake w s).latches = s.latches := by
  unfold wake; split <;> rfl

@[simp] theorem wake_windows (w : WakeSource) (s : State) : (wake w s).windows = s.windows := by
  unfold wake; split <;> rfl

@[simp] theorem wake_store (w : WakeSource) (s : State) : (wake w s).store = s.store := by
  unfold wake; split <;> rfl

@[simp] theorem wake_mail (w : WakeSource) (s : State) : (wake w s).mail = s.mail := by
  unfold wake; split <;> rfl

@[simp] theorem wake_free (w : WakeSource) (s : State) : (wake w s).free = s.free := by
  unfold wake; split <;> rfl

@[simp] theorem wake_pending (w : WakeSource) (s : State) : (wake w s).pending = s.pending := by
  unfold wake; split <;> rfl

@[simp] theorem wake_engine (w : WakeSource) (s : State) : (wake w s).engine = s.engine := by
  unfold wake; split <;> rfl

@[simp] theorem returnToActive_now (s : State) : (returnToActive s).now = s.now := by
  unfold returnToActive; split <;> rfl

@[simp] theorem returnToActive_power (s : State) : (returnToActive s).power = s.power := by
  unfold returnToActive; split <;> rfl

@[simp] theorem returnToActive_keys (s : State) : (returnToActive s).keys = s.keys := by
  unfold returnToActive; split <;> rfl

@[simp] theorem returnToActive_entry (s : State) : (returnToActive s).entry = s.entry := by
  unfold returnToActive; split <;> rfl

@[simp] theorem returnToActive_inputs (s : State) : (returnToActive s).inputs = s.inputs := by
  unfold returnToActive; split <;> rfl

@[simp] theorem returnToActive_vehicle (s : State) : (returnToActive s).vehicle = s.vehicle := by
  unfold returnToActive; split <;> rfl

@[simp] theorem returnToActive_latches (s : State) : (returnToActive s).latches = s.latches := by
  unfold returnToActive; split <;> rfl

@[simp] theorem returnToActive_windows (s : State) : (returnToActive s).windows = s.windows := by
  unfold returnToActive; split <;> rfl

@[simp] theorem returnToActive_store (s : State) : (returnToActive s).store = s.store := by
  unfold returnToActive; split <;> rfl

@[simp] theorem returnToActive_mail (s : State) : (returnToActive s).mail = s.mail := by
  unfold returnToActive; split <;> rfl

@[simp] theorem returnToActive_free (s : State) : (returnToActive s).free = s.free := by
  unfold returnToActive; split <;> rfl

@[simp] theorem returnToActive_pending (s : State) : (returnToActive s).pending = s.pending := by
  unfold returnToActive; split <;> rfl

@[simp] theorem returnToActive_link (s : State) : (returnToActive s).link = s.link := by
  unfold returnToActive; split <;> rfl

@[simp] theorem validFrame_now (s : State) : (validFrame s).now = s.now := by
  simp [validFrame]

@[simp] theorem validFrame_power (s : State) : (validFrame s).power = s.power := by
  simp [validFrame]

@[simp] theorem validFrame_keys (s : State) : (validFrame s).keys = s.keys := by
  simp [validFrame]

@[simp] theorem validFrame_entry (s : State) : (validFrame s).entry = s.entry := by
  simp [validFrame]

@[simp] theorem validFrame_inputs (s : State) : (validFrame s).inputs = s.inputs := by
  simp [validFrame]

@[simp] theorem validFrame_vehicle (s : State) : (validFrame s).vehicle = s.vehicle := by
  simp [validFrame]

@[simp] theorem validFrame_latches (s : State) : (validFrame s).latches = s.latches := by
  simp [validFrame]

@[simp] theorem validFrame_windows (s : State) : (validFrame s).windows = s.windows := by
  simp [validFrame]

@[simp] theorem validFrame_store (s : State) : (validFrame s).store = s.store := by
  simp [validFrame]

@[simp] theorem validFrame_mail (s : State) : (validFrame s).mail = s.mail := by
  simp [validFrame]

@[simp] theorem validFrame_free (s : State) : (validFrame s).free = s.free := by
  simp [validFrame]

@[simp] theorem validFrame_pending (s : State) : (validFrame s).pending = s.pending := by
  simp [validFrame]

@[simp] theorem validFrame_link (s : State) : (validFrame s).link = s.link := by
  simp [validFrame]

@[simp] theorem heard_now (n : Nat) (s : State) : (heard n s).now = s.now := by
  simp [heard]

@[simp] theorem heard_power (n : Nat) (s : State) : (heard n s).power = s.power := by
  simp [heard]

@[simp] theorem heard_keys (n : Nat) (s : State) : (heard n s).keys = s.keys := by
  simp [heard]

@[simp] theorem heard_entry (n : Nat) (s : State) : (heard n s).entry = s.entry := by
  simp [heard]

@[simp] theorem heard_inputs (n : Nat) (s : State) : (heard n s).inputs = s.inputs := by
  simp [heard]

@[simp] theorem heard_vehicle (n : Nat) (s : State) : (heard n s).vehicle = s.vehicle := by
  simp [heard]

@[simp] theorem heard_latches (n : Nat) (s : State) : (heard n s).latches = s.latches := by
  simp [heard]

@[simp] theorem heard_windows (n : Nat) (s : State) : (heard n s).windows = s.windows := by
  simp [heard]

@[simp] theorem heard_store (n : Nat) (s : State) : (heard n s).store = s.store := by
  simp [heard]

@[simp] theorem heard_mail (n : Nat) (s : State) : (heard n s).mail = s.mail := by
  simp [heard]

@[simp] theorem heard_free (n : Nat) (s : State) : (heard n s).free = s.free := by
  simp [heard]

@[simp] theorem heard_pending (n : Nat) (s : State) : (heard n s).pending = s.pending := by
  simp [heard]

@[simp] theorem heard_link_state (n : Nat) (s : State) : (heard n s).link.state = s.link.state := by
  simp [heard]

@[simp] theorem heard_link_overrun (n : Nat) (s : State) : (heard n s).link.overrun = s.link.overrun := by
  simp [heard]

@[simp] theorem heard_link_settings (n : Nat) (s : State) : (heard n s).link.settings = s.link.settings := by
  simp [heard]

@[simp] theorem heard_link_mask (n : Nat) (s : State) : (heard n s).link.mask = s.link.mask := by
  simp [heard]

@[simp] theorem taken_now (n : Nat) (s : State) : (taken n s).now = s.now := by
  simp [taken]

@[simp] theorem taken_power (n : Nat) (s : State) : (taken n s).power = s.power := by
  simp [taken]

@[simp] theorem taken_keys (n : Nat) (s : State) : (taken n s).keys = s.keys := by
  simp [taken]

@[simp] theorem taken_entry (n : Nat) (s : State) : (taken n s).entry = s.entry := by
  simp [taken]

@[simp] theorem taken_inputs (n : Nat) (s : State) : (taken n s).inputs = s.inputs := by
  simp [taken]

@[simp] theorem taken_vehicle (n : Nat) (s : State) : (taken n s).vehicle = s.vehicle := by
  simp [taken]

@[simp] theorem taken_latches (n : Nat) (s : State) : (taken n s).latches = s.latches := by
  simp [taken]

@[simp] theorem taken_windows (n : Nat) (s : State) : (taken n s).windows = s.windows := by
  simp [taken]

@[simp] theorem taken_store (n : Nat) (s : State) : (taken n s).store = s.store := by
  simp [taken]

@[simp] theorem taken_mail (n : Nat) (s : State) : (taken n s).mail = s.mail := by
  simp [taken]

@[simp] theorem taken_free (n : Nat) (s : State) : (taken n s).free = s.free := by
  simp [taken]

@[simp] theorem taken_pending (n : Nat) (s : State) : (taken n s).pending = s.pending := by
  simp [taken]

@[simp] theorem taken_link_overrun (n : Nat) (s : State) : (taken n s).link.overrun = s.link.overrun := by
  simp [taken]

@[simp] theorem taken_link_settings (n : Nat) (s : State) : (taken n s).link.settings = s.link.settings := by
  simp [taken]

@[simp] theorem taken_link_mask (n : Nat) (s : State) : (taken n s).link.mask = s.link.mask := by
  simp [taken]

@[simp] theorem taken_engine_steps (n : Nat) (s : State) : (taken n s).engine.steps = s.engine.steps := by
  simp only [taken, heard, validFrame, openRequest_engine, restartSilence_engine]
  unfold returnToActive; split <;> simp

@[simp] theorem taken_engine_triggers (n : Nat) (s : State) : (taken n s).engine.triggers = s.engine.triggers := by
  simp only [taken, heard, validFrame, openRequest_engine, restartSilence_engine]
  unfold returnToActive; split <;> simp

@[simp] theorem taken_engine_continuePoints (n : Nat) (s : State) : (taken n s).engine.continuePoints = s.engine.continuePoints := by
  simp only [taken, heard, validFrame, openRequest_engine, restartSilence_engine]
  unfold returnToActive; split <;> simp

@[simp] theorem taken_engine_refires (n : Nat) (s : State) : (taken n s).engine.refires = s.engine.refires := by
  simp only [taken, heard, validFrame, openRequest_engine, restartSilence_engine]
  unfold returnToActive; split <;> simp

@[simp] theorem taken_engine_runs (n : Nat) (s : State) : (taken n s).engine.runs = s.engine.runs := by
  simp only [taken, heard, validFrame, openRequest_engine, restartSilence_engine]
  unfold returnToActive; split <;> simp

@[simp] theorem taken_engine_nextSerial (n : Nat) (s : State) : (taken n s).engine.nextSerial = s.engine.nextSerial := by
  simp only [taken, heard, validFrame, openRequest_engine, restartSilence_engine]
  unfold returnToActive; split <;> simp

@[simp] theorem taken_engine_relock (n : Nat) (s : State) : (taken n s).engine.relock = s.engine.relock := by
  simp only [taken, heard, validFrame, openRequest_engine, restartSilence_engine]
  unfold returnToActive; split <;> simp

@[simp] theorem taken_engine_latest (n : Nat) (s : State) : (taken n s).engine.latest = s.engine.latest := by
  simp only [taken, heard, validFrame, openRequest_engine, restartSilence_engine]
  unfold returnToActive; split <;> simp

@[simp] theorem taken_engine_defaulting (n : Nat) (s : State) : (taken n s).engine.defaulting = s.engine.defaulting := by
  simp only [taken, heard, validFrame, openRequest_engine, restartSilence_engine]
  unfold returnToActive; split <;> simp

@[simp] theorem taken_link_state (n : Nat) (s : State) : (taken n s).link.state = .working := rfl

@[simp] theorem taken_sup_pendingReset (n : Nat) (s : State) : (taken n s).sup.pendingReset = false := rfl

/-- Every request is taken in ACTIVE (10, R166). -/
@[simp] theorem taken_sup_mode (n : Nat) (s : State) : (taken n s).sup.mode = .active := by
  have h : (driveHigh (n + 3) (wake .link s)).sup.mode ≠ .parked := by simpa using wake_mode .link s
  simpa [taken, heard, validFrame] using returnToActive_mode h

/-- A request taken has restarted the silence timer with the interval now in force (10, R167). -/
@[simp] theorem taken_sup_silence (n : Nat) (s : State) : (taken n s).sup.silence =
    some { start := s.now, interval := silenceInterval s.link.settings, atReset := false } := by
  simp [taken, heard, validFrame, restartSilence]

@[simp] theorem taken_sup_wakeout (n : Nat) (s : State) : (taken n s).sup.wakeout = false := rfl

/-! ### What a request comes to -/

theorem event_running (f : State → State) {s : State} (h : s.power = .running) : event f s = .next (f s) := by
  simp [event, h]

theorem event_held (f : State → State) {s : State} (h : s.power ≠ .running) : event f s = .next s := by
  simp [event, h]

theorem requestFrame_taken (n : Nat) (owner : State → State) {s : State} (h : s.link.state ≠ .working) :
    requestFrame n owner s = owner (taken n s) := by
  unfold requestFrame
  split
  · next e => exact absurd e h
  · rfl

/-- A request of a part that runs, with the link free, goes to its owner. -/
theorem hostRequest_taken (n : Nat) (owner : State → State) {s : State} (h : s.power = .running)
    (k : s.link.state ≠ .working) : hostRequest n owner s = .next (owner (taken n s)) := by
  rw [hostRequest, event_running _ h, requestFrame_taken n owner k]

/-- A request that meets a request in progress is only an OVERRUN. -/
theorem hostRequest_working (n : Nat) (owner : State → State) {s : State} (h : s.power = .running)
    (k : s.link.state = .working) : hostRequest n owner s = .next (markOverrun (heard n s)) := by
  rw [hostRequest, event_running _ h, requestFrame, k]

theorem ready_done (owner : State → State) {s : State} (h : s.store.scanDone = true) : ready owner s = owner s := by
  simp [ready, h]

theorem ready_scanning (owner : State → State) {s : State} (h : s.store.scanDone = false) :
    ready owner s = reply .notReady [] s := by
  simp [ready, h]

@[simp] theorem needs_some {α : Type} (x : α) (owner : α → State → State) (s : State) :
    needs (some x) owner s = owner x s := rfl

@[simp] theorem needs_none {α : Type} (owner : α → State → State) (s : State) :
    needs none owner s = reply .badArgument [] s := rfl

end Sys2Proof.Machine
end

