-- ==== Sys2Proof/Laws/KeyWrites.lean ====
section
/-! SUPPORT. The part of the Record Store's lists that concerns key records, which the writes of other records keep. -/

namespace Sys2Proof.Machine

open Sys2Proof

/-- A record is a key record. -/
def isKey : RecordId → Bool
  | .key _ => true
  | _ => false

/-- A waiter that a key record's write tells. -/
def keyWaiter : WriteWaiter → Bool
  | .counterPersist _ => true
  | .linkChange _ => true
  | _ => false

/-- The queued writes of key records, the key waiters of other writes, the rewrites of key records. -/
def keyWrites (x : Store) : List WriteEntry × List WriteWaiter × List (RecordId × Content) :=
  (x.queue.filter fun e => isKey e.id,
   x.queue.flatMap fun e => if isKey e.id then [] else e.waiters.filter keyWaiter,
   x.repair.filter fun p => isKey p.1)

/-- A write of another record that no key record's change waits for leaves them as they were. -/
theorem keyWrites_offer {id : RecordId} (c : Content) {w : List WriteWaiter} (s : State) (h : isKey id = false)
    (k : w.filter keyWaiter = []) : keyWrites (offer id c w s).store = keyWrites s.store := by
  unfold keyWrites offer
  have r : (s.store.repair.filter fun p => p.1 ≠ id).filter (fun p => isKey p.1) =
      s.store.repair.filter fun p => isKey p.1 := by
    rw [List.filter_filter]
    refine List.filter_congr fun p _ => ?_
    cases e : isKey p.1 with
    | false => rfl
    | true =>
      have n : p.1 ≠ id := fun q => by rw [q, h] at e; cases e
      simp [n]
  refine Prod.ext ?_ (Prod.ext ?_ r)
  · dsimp only
    split
    · induction s.store.queue with
      | nil => rfl
      | cons e l ih =>
        rw [List.map_cons]
        by_cases q : e.id = id
        · rw [if_pos q, List.filter_cons_of_neg (by simp [q, h]), List.filter_cons_of_neg (by simp [q, h]), ih]
        · rw [if_neg q]
          cases b : isKey e.id with
          | true => rw [List.filter_cons_of_pos (by simp [b]), List.filter_cons_of_pos (by simp [b]), ih]
          | false => rw [List.filter_cons_of_neg (by simp [b]), List.filter_cons_of_neg (by simp [b]), ih]
    · simp [h]
  · dsimp only
    split
    · induction s.store.queue with
      | nil => rfl
      | cons e l ih =>
        rw [List.map_cons, List.flatMap_cons, List.flatMap_cons, ih]
        by_cases q : e.id = id
        · simp [q, h, k]
        · rw [if_neg q]
    · simp [h, k]

@[simp] theorem keyWrites_offer_step (i : Fin 64) (c : Content) (s : State) :
    keyWrites (offer (.step i) c [.replyOk] s).store = keyWrites s.store := keyWrites_offer c s rfl rfl
@[simp] theorem keyWrites_offer_trigger (t : Trigger) (c : Content) (s : State) :
    keyWrites (offer (.trigger t) c [.replyOk] s).store = keyWrites s.store := keyWrites_offer c s rfl rfl
@[simp] theorem keyWrites_offer_settings (c : Content) (s : State) :
    keyWrites (offer .settings c [.replyOk] s).store = keyWrites s.store := keyWrites_offer c s rfl rfl
@[simp] theorem keyWrites_offer_crash (c : Content) (s : State) :
    keyWrites (offer .crash c [] s).store = keyWrites s.store := keyWrites_offer c s rfl rfl
@[simp] theorem keyWrites_offer_crash_reply (c : Content) (s : State) :
    keyWrites (offer .crash c [.replyOk] s).store = keyWrites s.store := keyWrites_offer c s rfl rfl
@[simp] theorem keyWrites_offer_window (d : Door) (c : Content) (s : State) :
    keyWrites (offer (.window d) c [.applied] s).store = keyWrites s.store := keyWrites_offer c s rfl rfl

end Sys2Proof.Machine
end

