-- ==== Sys2Proof/Laws/Moves.lean ====
section
/-! SUPPORT. What the Latch Units, the Window Units and the Chain Engine can do to the state, said once: every operation
of theirs is a chain of the updates of `Moves`. A fact that these updates keep is kept by all of them. -/

namespace Sys2Proof.Machine

open Sys2Proof

/-- Chains of the updates that latch, window and engine operations are made of. A Latch Unit or a window that they
replace stays within its bounds. -/
inductive Moves : State → State → Prop
  | refl (s : State) : Moves s s
  | trans {s t u : State} : Moves s t → Moves t u → Moves s u
  | latch (a : Aperture) (u : LatchUnit) (s : State) (h : creditWithin (latchAt s a) → creditWithin u) :
      Moves s (setLatch a u s)
  | child (r : Rear) (c : ChildLock) (s : State) : Moves s (setChild r c s)
  | pulse (p : Option Pulse) (s : State) : Moves s { s with latches := { s.latches with pulse := p } }
  | deferred (l : List Deferred) (s : State) : Moves s { s with latches := { s.latches with deferred := l } }
  | window (d : Door) (w : Window) (s : State) (h : windowWithin (windowAt s d) → windowWithin w) :
      Moves s (setWindow d w s)
  | engine (e : Engine) (s : State) (h : e.steps = s.engine.steps) (k : e.triggers = s.engine.triggers) :
      Moves s { s with engine := e }
  | searches (q : List SearchRequest) (x : Option Search) (s : State) :
      Moves s { s with entry := { s.entry with queue := q, search := x } }
  | raise (f : AttentionFlag) (s : State) : Moves s (raise f s)
  | write (d : Door) (c : WindowRec) (w : List WriteWaiter) (s : State) (h : w.filter keyWaiter = []) :
      Moves s (offer (.window d) (.window c) w s)
  | mail (m : List Notice) (s : State) : Moves s { s with mail := m }
  | free (n : Nat) (s : State) : Moves s { s with free := n }

namespace Moves

theorem foldl {α : Type} {f : State → α → State} (h : ∀ s x, Moves s (f s x)) (l : List α) (s : State) :
    Moves s (l.foldl f s) := by
  induction l generalizing s with
  | nil => exact refl s
  | cons x l ih => exact (h s x).trans (ih (f s x))

end Moves

/-! ### Units that stay within their bounds -/

theorem creditOf_within {u : LatchUnit} (h : creditWithin u) (now : Nat) : creditOf u now ≤ 3000 := by
  unfold creditOf
  split
  · exact h
  · exact Nat.min_le_left _ _

theorem scoreWithin_none {w : Window} (h : w.motion = none) : scoreWithin w := fun m e => by rw [h] at e; cases e

theorem scoreWithin_zero {w : Window} (h : ∀ m, w.motion = some m → m.score = 0) : scoreWithin w :=
  fun m e => ⟨by rw [h m e]; decide, .inl (h m e)⟩

theorem windowWithin.coast {w : Window} (h : windowWithin w) (now : Nat) : windowWithin (coast now w) :=
  ⟨h.1, h.2.1, h.2.2.1, scoreWithin_zero fun m e => by
    obtain ⟨x, _, rfl⟩ := Option.map_eq_some_iff.1 e
    rfl⟩

theorem windowWithin.applyPending {w : Window} (h : windowWithin w) : windowWithin (applyPending w) := by
  obtain ⟨t, k, p, s⟩ := h
  have r : (Machine.applyPending w).record.position = w.record.position := by
    unfold Machine.applyPending; dsimp only; split <;> split <;> rfl
  have l : (Machine.applyPending w).record.travel = none ∨
      (Machine.applyPending w).record.travel = w.record.travel := by
    unfold Machine.applyPending; dsimp only
    split <;> split
    all_goals first | exact .inl rfl | exact .inr rfl
  refine ⟨fun n e => ?_, fun e => ?_, p, s⟩
  · rcases l with l | l
    · rw [l] at e; cases e
    · rw [l] at e; exact t n e
  · have b := k e
    rw [r]
    rcases l with l | l
    · rw [l]
      revert b
      unfold bound
      cases o : w.record.travel with
      | none => exact id
      | some n => have := t n o; dsimp only; omega
    · rw [l]; exact b

@[simp] theorem latchAt_tell (req : Requester) (tags : List Tag) (a b : Aperture) (o : Tag → OpOutcome) (s : State) :
    latchAt (tell req tags a o s) b = latchAt s b := by unfold tell; split <;> rfl

@[simp] theorem windowAt_tell (req : Requester) (tags : List Tag) (a : Aperture) (d : Door) (o : Tag → OpOutcome)
    (s : State) : windowAt (tell req tags a o s) d = windowAt s d := by unfold tell; split <;> rfl

@[simp] theorem windowAt_tellMove (d b : Door) (m : Movement) (o : OpOutcome) (s : State) :
    windowAt (tellMove d m o s) b = windowAt s b := windowAt_tell _ _ _ _ _ _

@[simp] theorem windowAt_tellMotion (d b : Door) (o : OpOutcome) (s : State) :
    windowAt (tellMotion d o s) b = windowAt s b := by unfold tellMotion; split <;> simp

/-! ### Latch Units -/

theorem tell_moves (req : Requester) (tags : List Tag) (a : Aperture) (o : Tag → OpOutcome) (s : State) :
    Moves s (tell req tags a o s) := by
  unfold tell
  split
  · exact .mail _ s
  · exact .refl s

theorem beginDrive_moves (a : Aperture) (t : HeldTarget) (req : Requester) (tags : List Tag) (s : State) :
    Moves s (beginDrive a t req tags s) := .latch _ _ s fun h => creditOf_within h _

theorem endDrive_moves (a : Aperture) (s : State) : Moves s (endDrive a s) := by
  unfold endDrive
  dsimp only
  split
  · exact .refl s
  · exact .latch _ _ s fun h => Nat.le_trans (Nat.sub_le _ _) h

theorem resetTarget_moves (a : Aperture) (act : Actuator) (s : State) : Moves s (resetTarget a act s) := by
  unfold resetTarget
  split
  · exact (Moves.free _ s).trans (.latch _ _ _ (by exact id))
  · split
    · exact .child _ _ s
    · exact .refl s
  · exact .refl s

theorem takeTarget_moves (a : Aperture) (t : HeldTarget) (s : State) : Moves s (takeTarget a t s) := by
  unfold takeTarget
  split
  · exact .latch _ _ s (by exact id)
  · split
    · exact .child _ _ s
    · exact .refl s
  · exact .refl s

theorem deny_moves (a : Aperture) (req : Requester) (tags : List Tag) (r : Reason) (s : State) :
    Moves s (deny a req tags r s) := by
  unfold deny
  split
  · exact (Moves.raise _ s).trans (tell_moves _ _ _ _ _)
  · exact tell_moves _ _ _ _ _

theorem dropHeld_moves (a : Aperture) (s : State) : Moves s (dropHeld a s) := by
  unfold dropHeld
  split
  · exact .refl s
  · exact (Moves.latch _ _ s (by exact id)).trans (tell_moves _ _ _ _ _)

theorem overrideDrive_moves (a : Aperture) (s : State) : Moves s (overrideDrive a s) := by
  unfold overrideDrive
  split
  · exact .refl s
  · exact (endDrive_moves a s).trans (tell_moves _ _ _ _ _)

theorem hold_moves (a : Aperture) (t : HeldTarget) (req : Requester) (tags : List Tag) (s : State) :
    Moves s (hold a t req tags s) := by
  have h : Moves s (match (latchAt s a).held with
      | none => s
      | some h => resetTarget a (actuatorOf h.target) (dropHeld a s)) := by
    split
    · exact .refl s
    · exact (dropHeld_moves a s).trans (resetTarget_moves _ _ _)
  have k : creditWithin (latchAt (match (latchAt s a).held with
      | none => s
      | some h => resetTarget a (actuatorOf h.target) (dropHeld a s)) a) → creditWithin
        { latchAt (match (latchAt s a).held with
          | none => s
          | some h => resetTarget a (actuatorOf h.target) (dropHeld a s)) a with
          held := some { target := t, requester := req, tags } } := id
  unfold hold
  dsimp only
  split
  · exact (h.trans (.latch _ _ _ k)).trans (.raise _ _)
  · exact h.trans (.latch _ _ _ k)

theorem seekDrive_moves (a : Aperture) (t : HeldTarget) (req : Requester) (tags : List Tag) (s : State) :
    Moves s (seekDrive a t req tags s).1 := by
  unfold seekDrive
  dsimp only
  split
  · exact beginDrive_moves a t req tags s
  · exact hold_moves a t req tags s

theorem replaceEarlier_moves (a : Aperture) (t : HeldTarget) (s : State) : Moves s (replaceEarlier a t s) := by
  have h : Moves s (match (latchAt s a).drive with
      | some d => if actuatorOf d.target = actuatorOf t then overrideDrive a s else s
      | none => s) := by
    split
    · split
      · exact overrideDrive_moves a s
      · exact .refl s
    · exact .refl s
  unfold replaceEarlier
  dsimp only
  split
  · split
    · exact h.trans (dropHeld_moves a _)
    · exact h
  · exact h

theorem takeFresh_moves (a : Aperture) (t : HeldTarget) (req : Requester) (tags : List Tag) (s : State) :
    Moves s
      (let s := takeTarget a t (replaceEarlier a t s)
       if sensedMeets s a t then (tell req tags a metOutcome s, Answer.done) else seekDrive a t req tags s).1 := by
  have h := (replaceEarlier_moves a t s).trans (takeTarget_moves a t _)
  dsimp only
  split
  · exact h.trans (tell_moves _ _ _ _ _)
  · exact h.trans (seekDrive_moves _ _ _ _ _)

theorem takeRequest_moves (a : Aperture) (t : HeldTarget) (req : Requester) (tags : List Tag) (s : State) :
    Moves s (takeRequest a t req tags s).1 := by
  unfold takeRequest
  dsimp only
  split
  · split
    · exact (Moves.latch _ _ s (by exact id)).trans (takeTarget_moves _ _ _)
    · split
      · exact (Moves.latch _ _ s (by exact id)).trans (takeTarget_moves _ _ _)
      · split
        · split
          · exact (Moves.latch _ _ s (by exact id)).trans (takeTarget_moves _ _ _)
          · exact takeFresh_moves a t req tags s
        · exact takeFresh_moves a t req tags s
  · split
    · split
      · exact (Moves.latch _ _ s (by exact id)).trans (takeTarget_moves _ _ _)
      · exact takeFresh_moves a t req tags s
    · exact takeFresh_moves a t req tags s

theorem startPulse_moves (req : Requester) (tags : List Tag) (s : State) : Moves s (startPulse req tags s) := by
  have h : Moves s (match (latchAt s .tg).held with
      | some h => if h.target = HeldTarget.release then dropHeld .tg s else s
      | none => s) := by
    split
    · split
      · exact dropHeld_moves _ s
      · exact .refl s
    · exact .refl s
  exact h.trans (.pulse _ _)

theorem requestRelease_moves (req : Requester) (tags : List Tag) (s : State) :
    Moves s (requestRelease req tags s).1 := by
  unfold requestRelease
  split
  · exact deny_moves _ _ _ _ s
  · exact tell_moves _ _ _ _ s
  · split
    · exact hold_moves _ _ _ _ s
    · exact startPulse_moves _ _ s

theorem requestLatch_moves (a : Aperture) (t : HeldTarget) (req : Requester) (tags : List Tag) (s : State) :
    Moves s (requestLatch a t req tags s).1 := by
  unfold requestLatch
  split
  · exact deny_moves _ _ _ _ s
  · split
    · exact requestRelease_moves _ _ s
    · exact takeRequest_moves _ _ _ _ s

theorem finishDrive_moves (a : Aperture) (o : OpOutcome) (s : State) : Moves s (finishDrive a o s) := by
  unfold finishDrive
  split
  · exact .refl s
  · exact (endDrive_moves a s).trans (tell_moves _ _ _ _ _)

theorem latchFault_moves (a : Aperture) (f : LatchFault) (s : State) : Moves s (latchFault a f s) :=
  (Moves.latch _ _ s (by exact id)).trans (.raise _ _)

theorem latchSensed_moves (a : Aperture) (q : LatchState) (first : Bool) (s : State) :
    Moves s (latchSensed a q first s) := by
  unfold latchSensed
  dsimp only
  refine (Moves.latch a { latchAt s a with sensed := q } s id).trans ?_
  split
  · split
    · exact (latchFault_moves _ _ _).trans (finishDrive_moves _ _ _)
    · split
      · exact finishDrive_moves _ _ _
      · exact .refl _
  · split
    · split
      · exact (Moves.latch _ _ _ (by exact id)).trans (latchFault_moves _ _ _)
      · exact latchFault_moves _ _ _
    · split
      · exact .refl _
      · exact .latch _ _ _ (by exact id)

theorem childSensed_moves (r : Rear) (q : Bool) (first : Bool) (s : State) : Moves s (childSensed r q first s) := by
  unfold childSensed
  dsimp only
  refine (Moves.child r { childAt s r with sensed := q } s).trans ?_
  split
  · split
    · split
      · exact finishDrive_moves _ _ _
      · exact .refl _
    · split
      · exact .refl _
      · exact .child _ _ _
  · split
    · exact .refl _
    · exact .child _ _ _

/-! ### Window Units -/

theorem tellMove_moves (d : Door) (m : Movement) (o : OpOutcome) (s : State) : Moves s (tellMove d m o s) :=
  tell_moves _ _ _ _ s

theorem tellMotion_moves (d : Door) (o : OpOutcome) (s : State) : Moves s (tellMotion d o s) := by
  unfold tellMotion
  split
  · exact tellMove_moves _ _ _ s
  · exact .refl s

theorem writeWindow_moves (d : Door) {w : List WriteWaiter} (s : State) (h : w.filter keyWaiter = []) :
    Moves s (writeWindow d w s) := .write _ _ _ s h

theorem toIdle_moves (d : Door) (s : State) : Moves s (toIdle d s) := by
  unfold toIdle
  refine (Moves.window d _ s fun h => ?_).trans (writeWindow_moves d _ rfl)
  exact ⟨h.applyPending.1, h.applyPending.2.1, h.2.2.1, scoreWithin_none rfl⟩

theorem startMotor_moves (d : Door) (m : Movement) (s : State) : Moves s (startMotor d m s) := by
  unfold startMotor
  dsimp only
  split
  · exact (tellMove_moves _ _ _ s).trans (toIdle_moves _ _)
  · split
    · exact (tellMove_moves _ _ _ s).trans (toIdle_moves _ _)
    · exact .window _ _ s fun h => ⟨h.1, h.2.1, h.2.2.1, scoreWithin_zero (by rintro _ ⟨⟩; rfl)⟩

theorem comeToRest_moves (d : Door) (s : State) : Moves s (comeToRest d s) := by
  unfold comeToRest
  dsimp only
  refine (Moves.window d (applyPending (windowAt s d)) s windowWithin.applyPending).trans ?_
  split
  · exact toIdle_moves _ _
  · split
    · exact .window _ _ _ fun h => by
        rw [windowAt_setWindow_same] at h
        exact ⟨h.1, h.2.1, h.2.2.1, scoreWithin_zero (by rintro _ ⟨⟩; rfl)⟩
    · exact startMotor_moves _ _ _

theorem stopMovement_moves (d : Door) (o : Option OpOutcome) (s : State) : Moves s (stopMovement d o s) := by
  have h : ∀ x : State, Moves s x → windowAt x d = windowAt s d → Moves s
      (match (windowAt s d).phase with
       | .running => setWindow d (coast s.now (windowAt s d)) x
       | .marking => comeToRest d (setWindow d { windowAt s d with motion := none, followOn := none } x)
       | .idle => s
       | .coasting => s) := by
    intro x m k
    split
    · exact m.trans (.window _ _ _ fun w => (k ▸ w).coast _)
    · refine (m.trans (.window _ _ _ fun w => ?_)).trans (comeToRest_moves _ _)
      rw [k] at w
      exact ⟨w.1, w.2.1, w.2.2.1, scoreWithin_none rfl⟩
    · exact .refl s
    · exact .refl s
  unfold stopMovement
  dsimp only
  cases o with
  | none => exact h s (.refl s) rfl
  | some o => exact h _ (tellMotion_moves _ _ s) (by simp)

theorem removeFollowOn_moves (d : Door) (o : Option OpOutcome) (s : State) : Moves s (removeFollowOn d o s) := by
  unfold removeFollowOn
  dsimp only
  split
  · exact .refl s
  · split
    · exact (Moves.window _ _ s (by exact id)).trans (tellMove_moves _ _ _ _)
    · exact .window _ _ s (by exact id)

theorem beginMarking_moves (d : Door) (m : Movement) (s : State) : Moves s (beginMarking d m s) := by
  have k : windowWithin (windowAt s d) → windowWithin { windowAt s d with
      phase := .marking, motion := some (freshMotion m), lastFault := .none,
      record := { (windowAt s d).record with valid := false } } :=
    fun h => ⟨h.1, h.2.1, h.2.2.1, scoreWithin_zero (by rintro _ ⟨⟩; rfl)⟩
  unfold beginMarking
  dsimp only
  split
  · exact (Moves.window _ _ s k).trans (writeWindow_moves _ _ rfl)
  · exact .window _ _ s k

theorem removeFollowOn_within {d : Door} {o : Option OpOutcome} {s : State}
    (h : windowWithin (windowAt (removeFollowOn d o s) d)) : windowWithin (windowAt s d) := by
  unfold removeFollowOn at h
  dsimp only at h
  split at h
  · exact h
  · split at h
    · rw [windowAt_tellMove, windowAt_setWindow_same] at h; exact h
    · rw [windowAt_setWindow_same] at h; exact h

theorem takeMovement_moves (d : Door) (m : Movement) (s : State) : Moves s (takeMovement d m s).1 := by
  unfold takeMovement
  dsimp only
  split
  · split
    · exact tellMove_moves _ _ _ s
    · exact beginMarking_moves _ _ s
  · refine (tellMotion_moves _ _ s).trans (.window _ _ _ fun h => ?_)
    rw [windowAt_tellMotion] at h
    exact ⟨h.1, h.2.1, h.2.2.1, scoreWithin_zero (by rintro _ ⟨⟩; rfl)⟩
  · split
    · exact tellMotion_moves _ _ s
    · next x e =>
      split
      · refine ((tellMotion_moves _ _ s).trans (.window _ _ _ fun h => ?_)).trans (tellMove_moves _ _ _ _)
        rw [windowAt_tellMotion] at h
        exact ⟨h.1, h.2.1, h.2.2.1, scoreWithin_zero fun y k => by
          obtain ⟨z, _, rfl⟩ := Option.map_eq_some_iff.1 k
          rfl⟩
      · split
        · next same =>
          refine (tellMotion_moves _ _ s).trans (.window _ _ _ fun h => ?_)
          rw [windowAt_tellMotion] at h
          refine ⟨h.1, h.2.1, h.2.2.1, fun y k => ?_⟩
          obtain ⟨z, zw, rfl⟩ := Option.map_eq_some_iff.1 k
          have zx : z = x := Option.some.inj (zw.symm.trans e)
          have b := h.2.2.2 z zw
          exact ⟨b.1, b.2.imp id fun c => ⟨c.1, by rw [← c.2, zx]; exact same⟩⟩
        · refine (tellMotion_moves _ _ s).trans (.window _ _ _ fun h => ?_)
          rw [windowAt_tellMotion] at h
          exact h.coast _
  · refine (removeFollowOn_moves _ _ s).trans (.window _ _ _ fun h => ?_)
    exact removeFollowOn_within h

theorem requestMovement_moves (d : Door) (m : Movement) (s : State) : Moves s (requestMovement d m s).1 := by
  unfold requestMovement
  dsimp only
  split
  · exact tellMove_moves _ _ _ s
  · split
    · exact tellMove_moves _ _ _ s
    · exact takeMovement_moves _ _ s

theorem retireWindow_moves (t : Trigger) (s : State) (d : Door) : Moves s (retireWindow t s d) := by
  have k : ∀ x : State, Moves s x → Moves s
      (if (windowAt x d).followOn.any (fun m => decide (m.requester = .chain t)) then removeFollowOn d none x else x) := by
    intro x h
    split
    · exact h.trans (removeFollowOn_moves _ _ _)
    · exact h
  unfold retireWindow
  dsimp only
  refine k _ ?_
  split
  · exact stopMovement_moves _ _ s
  · exact .refl s

/-! ### Chain Engine -/

theorem setRun_moves (t : Trigger) (r : Option Run) (s : State) : Moves s (setRun t r s) := .engine _ s rfl rfl

theorem setContinue_moves (t : Trigger) (c : Option ContinuePoint) (s : State) : Moves s (setContinue t c s) :=
  .engine _ s rfl rfl

theorem setRefire_moves (t : Trigger) (c : Option Carried) (s : State) : Moves s (setRefire t c s) := .engine _ s rfl rfl

theorem dropWaiter_moves (t : Trigger) (s : State) : Moves s (dropWaiter t s) := .searches _ _ s

theorem requestSearch_moves (z : Zone) (p : Purpose) (w : List SearchWaiter) (s : State) :
    Moves s (requestSearch z p w s) := by
  unfold requestSearch
  dsimp only
  split
  · split
    · exact .searches _ _ s
    · exact .searches _ _ s
  · exact .searches _ _ s

theorem recordNotice_moves (s : State) (n : Notice) : Moves s (recordNotice s n) := by
  unfold recordNotice
  split
  · exact .refl s
  · split
    · exact setRun_moves _ _ s
    · exact .refl s

theorem deliver_moves (s : State) : Moves s (deliver s) :=
  (Moves.mail [] s).trans (Moves.foldl recordNotice_moves _ _)

theorem setLatest_moves (x : Option LatestOutcome) (s : State) :
    Moves s { s with engine := { s.engine with latest := x } } := .engine _ s rfl rfl

theorem setSerial_moves (n : Nat) (s : State) :
    Moves s { s with engine := { s.engine with nextSerial := n } } := .engine _ s rfl rfl

theorem setArmed_moves (b : Bool) (s : State) :
    Moves s { s with engine := { s.engine with armed := b } } := .engine _ s rfl rfl

theorem removeRun_moves (t : Trigger) (r : Run) (o : RunOutcome) (l : Option (Fin 64)) (s : State) :
    Moves s (removeRun t r o l s) :=
  ((setRun_moves t none s).trans (.raise _ _)).trans (setLatest_moves _ _)

theorem retire_moves (t : Trigger) (o : RunOutcome) (s : State) : Moves s (retire t o s) := by
  unfold retire
  split
  · exact .refl s
  · exact (((Moves.foldl (retireWindow_moves t) _ s).trans (dropWaiter_moves t _)).trans (setRefire_moves _ _ _)).trans
      (removeRun_moves _ _ _ _ _)

theorem park_moves (t : Trigger) (r : Run) (f : FaultKind × Option Aperture) (s : State) : Moves s (park t r f s) :=
  (setRun_moves _ _ s).trans (.raise _ _)

theorem startRelock_moves (t : Trigger) (o : RunOutcome) (s : State) : Moves s (startRelock t o s) := by
  unfold startRelock
  split
  · exact .engine _ s rfl rfl
  · exact .refl s

theorem suspend_moves (t : Trigger) (s : State) : Moves s (suspend t s) := by
  unfold suspend
  split
  · exact .refl s
  · exact setRun_moves _ _ s

theorem issueLatch_moves (t : Trigger) (g : Tag) (a : Aperture) (x : HeldTarget) (s : State) :
    Moves s (issueLatch t g a x s) := by
  unfold issueLatch
  split
  · exact .deferred _ s
  · exact requestLatch_moves _ _ _ _ s

theorem issueWindow_moves (t : Trigger) (g : Tag) (a : Aperture) (st : Step) (s : State) :
    Moves s (issueWindow t g a st s) := by
  unfold issueWindow
  split
  · exact .refl s
  · split
    · exact requestMovement_moves _ _ s
    · exact requestMovement_moves _ _ s
    · dsimp only
      split
      · exact tell_moves _ _ _ _ s
      · exact requestMovement_moves _ _ s
    · exact .refl s

theorem issueOne_moves (t : Trigger) (g : Tag) (st : Step) (a : Aperture) (s : State) :
    Moves s (issueOne t g st a s) := by
  unfold issueOne
  split
  all_goals first
    | exact issueLatch_moves _ _ _ _ s
    | exact issueWindow_moves _ _ _ _ s
    | exact .refl s

theorem engineOutcome_moves (t : Trigger) (a : Aperture) (o : OpOutcome) (s : State) :
    Moves s (engineOutcome t a o s) := by
  unfold engineOutcome
  split
  · split
    · exact setRun_moves _ _ s
    · exact .refl s
  · exact .refl s

theorem discardOwn_moves (t : Trigger) (g : Tag) (a : Aperture) (s : State) : Moves s (discardOwn t g a s) := .mail _ s

theorem issueAperture_moves (t : Trigger) (g : Tag) (st : Step) (s : State) (a : Aperture) :
    Moves s (issueAperture t g st s a) := by
  unfold issueAperture
  split
  · exact .refl s
  · split
    · exact .refl s
    · dsimp only
      have h := ((issueOne_moves t g st a s).trans (discardOwn_moves t g a _)).trans (deliver_moves _)
      split
      · exact h.trans (engineOutcome_moves _ _ _ _)
      · exact h

theorem skipMet_moves (t : Trigger) (st : Step) (s : State) : Moves s (skipMet t st s) := by
  unfold skipMet
  split
  · refine Moves.foldl (fun x a => ?_) _ s
    split
    · exact engineOutcome_moves _ _ _ _
    · exact .refl _
  · exact .refl s

theorem issueStep_moves (t : Trigger) (st : Step) (s : State) : Moves s (issueStep t st s) := by
  unfold issueStep
  split
  · exact .refl s
  · exact (skipMet_moves _ _ s).trans (Moves.foldl (issueAperture_moves _ _ _) _ _)

theorem resume_moves (t : Trigger) (r : Run) (st : Step) (s : State) : Moves s (resume t r st s) := by
  unfold resume
  split
  · exact park_moves _ _ _ s
  · split
    · exact setRun_moves _ _ s
    · exact .refl s
    · split
      · exact .refl s
      · exact issueStep_moves _ _ s

theorem activate_moves (t : Trigger) (s : State) : Moves s (activate t s) := by
  unfold activate
  split
  · exact .refl s
  · dsimp only
    split
    · exact (setRun_moves _ _ s).trans (resume_moves _ _ _ _)
    · exact setRun_moves _ _ s

theorem preempt_moves (t : Trigger) (s : State) : Moves s (preempt t s) := by
  unfold preempt
  split
  · split
    · split
      · exact (suspend_moves _ s).trans (activate_moves _ _)
      · exact .refl s
    · exact .refl s
  · exact .refl s

theorem cancelTrigger_moves (s : State) (t : Trigger) : Moves s (cancelTrigger s t) :=
  (retire_moves _ _ s).trans (setContinue_moves _ _ _)

theorem stopRelock_moves (s : State) : Moves s (stopRelock s) := .engine _ s rfl rfl

theorem takeFiring_moves (f : Firing) (start : Fin 64) (s : State) : Moves s (takeFiring f start s) := by
  unfold takeFiring
  dsimp only
  exact (((((setRun_moves _ _ s).trans (setContinue_moves _ _ _)).trans (setSerial_moves _ _)).trans
    (Moves.foldl cancelTrigger_moves _ _)).trans (stopRelock_moves _)).trans (preempt_moves _ _)

theorem crashSweep_moves (s : State) : Moves s (crashSweep s) := by
  unfold crashSweep
  dsimp only
  refine ((Moves.foldl (fun x u => ?_) _ s).trans (setContinue_moves _ _ _)).trans (stopRelock_moves _)
  exact (cancelTrigger_moves x u).trans (setRefire_moves _ _ _)

theorem decideFiring_moves (f : Firing) (s : State) : Moves s (decideFiring f s).1 := by
  unfold decideFiring
  dsimp only
  split
  · exact .refl s
  · split
    · exact takeFiring_moves _ _ s
    · split
      · exact .raise _ s
      · split
        · exact setRun_moves _ _ s
        · exact .refl s
      · split
        · exact setRun_moves _ _ s
        · exact setRefire_moves _ _ s

theorem fire_moves (f : Firing) (s : State) : Moves s (fire f s).1 := by
  unfold fire
  split
  · exact (crashSweep_moves s).trans (decideFiring_moves _ _)
  · exact decideFiring_moves _ s

theorem endRun_moves (t : Trigger) (r : Run) (o : RunOutcome) (s : State) : Moves s (endRun t r o s) := by
  have h := (removeRun_moves t r o (some r.stepIndex) s).trans (startRelock_moves t o _)
  unfold endRun
  dsimp only
  split
  · exact h
  · exact (h.trans (setRefire_moves _ _ _)).trans (fire_moves _ _)

theorem damagedStep_moves (t : Trigger) (r : Run) (s : State) : Moves s (damagedStep t r s) := by
  unfold damagedStep
  split
  · exact (Moves.raise _ s).trans (endRun_moves _ _ _ _)
  · exact park_moves _ _ _ s

theorem beginStep_moves (t : Trigger) (r : Run) (s : State) : Moves s (beginStep t r s) := by
  unfold beginStep
  split
  · exact endRun_moves _ _ _ s
  · dsimp only
    split
    · exact (setRun_moves _ _ s).trans (damagedStep_moves _ _ _)
    · split
      · exact (setRun_moves _ _ s).trans (endRun_moves _ _ _ _)
      · exact setRun_moves _ _ s
      · exact (setRun_moves _ _ s).trans (requestSearch_moves _ _ _ _)
      · split
        · exact setRun_moves _ _ s
        · exact (setRun_moves _ _ s).trans (issueStep_moves _ _ _)

theorem afterStep_moves (t : Trigger) (r : Run) (st : Step) (s : State) : Moves s (afterStep t r st s) := by
  have h : Moves s (if hasNotify st then raise .chainNotify s else s) := by
    split
    · exact .raise _ s
    · exact .refl s
  unfold afterStep
  dsimp only
  split
  · exact h.trans (endRun_moves _ _ _ _)
  · split
    · exact (h.trans (setContinue_moves _ _ _)).trans (endRun_moves _ _ _ _)
    · split
      · exact h.trans (endRun_moves _ _ _ _)
      · exact h.trans (setRun_moves _ _ _)

theorem completeStep_moves (t : Trigger) (r : Run) (st : Step) (s : State) : Moves s (completeStep t r st s) := by
  unfold completeStep
  split
  · exact (Moves.raise _ s).trans (endRun_moves _ _ _ _)
  · split
    · split
      · exact ((setRun_moves _ _ s).trans (.raise _ _)).trans (afterStep_moves _ _ _ _)
      · exact park_moves _ _ _ s
    · exact afterStep_moves _ _ _ s

theorem engineMove_moves {s t : State} (h : engineMove s = some t) : Moves s t := by
  unfold engineMove at h
  split at h
  · cases h
  · split at h
    · cases h
    · split at h
      · cases h; exact beginStep_moves _ _ s
      · split at h
        · cases h; exact completeStep_moves _ _ _ s
        · cases h

theorem settle_moves (n : Nat) (s : State) : Moves s (settle n s) := by
  induction n generalizing s with
  | zero => exact .refl s
  | succ n ih =>
    unfold settle
    split
    · exact .refl s
    · next h => exact (engineMove_moves h).trans (ih _)

/-- Everything that the end of an event does is a chain of these updates. -/
theorem finishEvent_moves (s : State) : Moves s (finishEvent s) :=
  ((deliver_moves s).trans (settle_moves _ _)).trans (deliver_moves _)

theorem testSpeedLock_moves (s : State) : Moves s (testSpeedLock s) := by
  unfold testSpeedLock
  split
  · exact (setArmed_moves _ s).trans (fire_moves _ _)
  · exact .refl s

end Sys2Proof.Machine
end

