-- ==== Sys2Proof/Laws/Kept.lean ====
section
/-! SUPPORT. What the latch, window and engine operations leave as it was, and when the end of an event does nothing. -/

namespace Sys2Proof.Machine

open Sys2Proof

/-- Everything that latch, window and engine operations leave as it was; flags may join the set. -/
structure Kept (s t : State) : Prop where
  now : t.now = s.now
  power : t.power = s.power
  keys : t.keys = s.keys
  inputs : t.inputs = s.inputs
  vehicle : t.vehicle = s.vehicle
  sup : t.sup = s.sup
  pending : t.pending = s.pending
  linkState : t.link.state = s.link.state
  overrun : t.link.overrun = s.link.overrun
  dataOut : t.link.dataOut = s.link.dataOut
  settings : t.link.settings = s.link.settings
  mask : t.link.mask = s.link.mask
  flags : s.link.flags &&& t.link.flags = s.link.flags
  rfQueue : t.entry.rfQueue = s.entry.rfQueue
  processing : t.entry.processing = s.entry.processing
  access : t.entry.access = s.entry.access
  flash : t.store.flash = s.store.flash
  scanDone : t.store.scanDone = s.store.scanDone
  inFlight : t.store.inFlight = s.store.inFlight
  damage : t.store.damage = s.store.damage
  crashHold : t.latches.crashHold = s.latches.crashHold
  crashPending : t.latches.crashPending = s.latches.crashPending
  interval : t.latches.interval = s.latches.interval
  steps : t.engine.steps = s.engine.steps
  triggers : t.engine.triggers = s.engine.triggers
  keyWrites : keyWrites t.store = keyWrites s.store

theorem Kept.refl (s : State) : Kept s s := by
  constructor <;> simp

theorem Kept.trans {s t u : State} (h : Kept s t) (k : Kept t u) : Kept s u := by
  constructor
  case flags =>
    have a := h.flags
    have b := k.flags
    rw [← a, BitVec.and_assoc, b]
  all_goals first
    | rw [k.now, h.now] | rw [k.power, h.power] | rw [k.keys, h.keys] | rw [k.inputs, h.inputs]
    | rw [k.vehicle, h.vehicle] | rw [k.sup, h.sup] | rw [k.pending, h.pending]
    | rw [k.linkState, h.linkState] | rw [k.overrun, h.overrun] | rw [k.dataOut, h.dataOut]
    | rw [k.settings, h.settings] | rw [k.mask, h.mask] | rw [k.rfQueue, h.rfQueue]
    | rw [k.processing, h.processing] | rw [k.access, h.access] | rw [k.flash, h.flash]
    | rw [k.scanDone, h.scanDone] | rw [k.inFlight, h.inFlight] | rw [k.damage, h.damage]
    | rw [k.crashHold, h.crashHold] | rw [k.crashPending, h.crashPending] | rw [k.interval, h.interval]
    | rw [k.steps, h.steps] | rw [k.triggers, h.triggers]
    | rw [k.keyWrites, h.keyWrites]

theorem and_or_self (x y : BitVec 16) : x &&& (x ||| y) = x := by
  ext i; simp_all

theorem raise_kept (f : AttentionFlag) (s : State) : Kept s (raise f s) := by
  constructor <;> first | rfl | exact and_or_self _ _

/-- Whatever latch, window and engine operations do, they leave all this as it was. -/
theorem Moves.kept {s t : State} (h : Moves s t) : Kept s t := by
  induction h with
  | refl s => exact .refl s
  | trans _ _ h k => exact h.trans k
  | raise f s => exact raise_kept f s
  | engine _ _ => constructor <;> first | rfl | exact BitVec.and_self | assumption
  | write d c w s h => constructor <;> first | rfl | exact BitVec.and_self | exact keyWrites_offer _ _ rfl h
  | _ => constructor <;> first | rfl | exact BitVec.and_self

theorem finishEvent_kept (s : State) : Kept s (finishEvent s) := (finishEvent_moves s).kept

theorem fire_kept (f : Firing) (s : State) : Kept s (fire f s).1 := (fire_moves f s).kept

theorem requestLatch_kept (a : Aperture) (x : HeldTarget) (r : Requester) (g : List Tag) (s : State) :
    Kept s (requestLatch a x r g s).1 := (requestLatch_moves a x r g s).kept

theorem requestMovement_kept (d : Door) (m : Movement) (s : State) : Kept s (requestMovement d m s).1 :=
  (requestMovement_moves d m s).kept

/-! ### The end of an event -/

theorem recordNotice_mail (s : State) (n : Notice) : (recordNotice s n).mail = s.mail := by
  unfold recordNotice
  split
  · rfl
  · split <;> rfl

theorem foldl_recordNotice_mail (l : List Notice) (s : State) : (l.foldl recordNotice s).mail = s.mail := by
  induction l generalizing s with
  | nil => rfl
  | cons n l ih => rw [List.foldl_cons, ih, recordNotice_mail]

/-- A delivery leaves nothing on its way. -/
@[simp] theorem deliver_mail (s : State) : (deliver s).mail = [] := foldl_recordNotice_mail _ _

/-- The end of an event leaves nothing on its way. -/
@[simp] theorem finishEvent_mail (s : State) : (finishEvent s).mail = [] := deliver_mail _

theorem deliver_of_empty {s : State} (h : s.mail = []) : deliver s = s := by
  unfold deliver; rw [h]; cases s; simp_all

theorem settle_still (n : Nat) {s : State} (h : engineMove s = none) : settle n s = s := by
  cases n with
  | zero => rfl
  | succ n => rw [settle, h]

/-- With nothing on its way and no run that can move, the end of an event changes nothing. -/
theorem finishEvent_settled {s : State} (h : Settled s) : finishEvent s = s := by
  unfold finishEvent
  rw [deliver_of_empty h.1, settle_still _ h.2, deliver_of_empty h.1]

/-- Whether a run can move depends on the runs alone. -/
theorem engineMove_none_of_runs {s t : State} (h : t.engine.runs = s.engine.runs) (k : engineMove s = none) :
    engineMove t = none := by
  have r : ∀ u, runAt t u = runAt s u := fun u => by simp only [runAt, h]
  have a : activeTrigger t = activeTrigger s := by simp only [activeTrigger, r]
  unfold engineMove at k ⊢
  rw [a]
  split
  · rfl
  · next u e =>
    rw [e] at k
    dsimp only at k
    rw [r]
    revert k
    split
    · exact fun _ => rfl
    · split
      · exact fun k => nomatch k
      · split
        · exact fun k => nomatch k
        · exact fun _ => rfl

theorem Settled.of_runs {s t : State} (h : Settled s) (m : t.mail = []) (e : t.engine.runs = s.engine.runs) :
    Settled t := ⟨m, engineMove_none_of_runs e h.2⟩

theorem Settled.setWindow {s : State} (h : Settled s) (d : Door) (w : Window) : Settled (setWindow d w s) :=
  h.of_runs h.1 rfl

theorem Settled.setLatch {s : State} (h : Settled s) (a : Aperture) (u : LatchUnit) : Settled (setLatch a u s) :=
  h.of_runs h.1 rfl

theorem Settled.clockTo {s : State} (h : Settled s) (t : Nat) : Settled (clockTo t s) := h.of_runs h.1 rfl

theorem Settled.reply {s : State} (h : Settled s) (st : Status) (p : List Byte) : Settled (reply st p s) :=
  h.of_runs h.1 rfl

theorem Settled.raise {s : State} (h : Settled s) (f : AttentionFlag) : Settled (raise f s) := h.of_runs h.1 rfl

theorem Settled.offer {s : State} (h : Settled s) (id : RecordId) (c : Content) (w : List WriteWaiter) :
    Settled (offer id c w s) := h.of_runs h.1 rfl

/-- A request taken leaves a settled engine settled. -/
theorem Settled.taken {s : State} (h : Settled s) (n : Nat) : Settled (taken n s) :=
  h.of_runs (by simpa using h.1) (by simp)

/-! ### Writes offered -/

/-- A write that a party waits for stands in the queue. -/
theorem offer_queued (id : RecordId) (c : Content) (w : List WriteWaiter) (s : State) {x : WriteWaiter} (h : x ∈ w) :
    Queued (offer id c w s) id c x := by
  unfold Queued Machine.offer
  dsimp only
  split
  · next k =>
    simp only [List.any_eq_true, decide_eq_true_eq] at k
    obtain ⟨e, he, hid⟩ := k
    refine ⟨{ e with content := c, waiters := e.waiters ++ w }, ?_, hid, rfl, List.mem_append_right _ h⟩
    exact List.mem_map.2 ⟨e, he, by simp [hid]⟩
  · exact ⟨⟨id, c, w⟩, List.mem_append_right _ (List.mem_singleton.2 rfl), rfl, rfl, h⟩

end Sys2Proof.Machine
end

