-- ==== Sys2Proof/Laws/Fields.lean ====
section
/-! SUPPORT. What the latch, window and engine operations leave as it was, ready for simp: each lemma is one equation a
field. -/

namespace Sys2Proof.Machine

open Sys2Proof

/-- The fields that no latch, window or engine operation changes. -/
@[simp] abbrev SameFields (s t : State) : Prop :=
  t.now = s.now ∧ t.power = s.power ∧ t.keys = s.keys ∧ t.inputs = s.inputs ∧ t.vehicle = s.vehicle ∧
  t.sup = s.sup ∧ t.pending = s.pending ∧ t.link.state = s.link.state ∧
  t.link.overrun = s.link.overrun ∧ t.link.dataOut = s.link.dataOut ∧ t.link.settings = s.link.settings ∧
  t.link.mask = s.link.mask ∧ t.entry.rfQueue = s.entry.rfQueue ∧ t.entry.processing = s.entry.processing ∧
  t.entry.access = s.entry.access ∧ t.store.flash = s.store.flash ∧ t.store.scanDone = s.store.scanDone ∧
  t.store.inFlight = s.store.inFlight ∧ t.store.damage = s.store.damage ∧
  t.latches.crashHold = s.latches.crashHold ∧ t.latches.crashPending = s.latches.crashPending ∧
  t.latches.interval = s.latches.interval ∧ t.engine.steps = s.engine.steps ∧ t.engine.triggers = s.engine.triggers ∧
  keyWrites t.store = keyWrites s.store

theorem Kept.same {s t : State} (h : Kept s t) : SameFields s t :=
  ⟨h.now, h.power, h.keys, h.inputs, h.vehicle, h.sup, h.pending, h.linkState, h.overrun, h.dataOut,
   h.settings, h.mask, h.rfQueue, h.processing, h.access, h.flash, h.scanDone, h.inFlight, h.damage, h.crashHold,
   h.crashPending, h.interval, h.steps, h.triggers, h.keyWrites⟩

@[simp] theorem finishEvent_same (s : State) : SameFields s (finishEvent s) := (finishEvent_kept s).same
@[simp] theorem fire_same (f : Firing) (s : State) : SameFields s (fire f s).1 := (fire_kept f s).same
@[simp] theorem requestLatch_same (a : Aperture) (x : HeldTarget) (r : Requester) (g : List Tag) (s : State) :
    SameFields s (requestLatch a x r g s).1 := (requestLatch_kept a x r g s).same
@[simp] theorem discardOwn_same (t : Trigger) (g : Tag) (a : Aperture) (s : State) : SameFields s (discardOwn t g a s) :=
  (discardOwn_moves t g a s).kept.same
@[simp] theorem requestMovement_same (d : Door) (m : Movement) (s : State) :
    SameFields s (requestMovement d m s).1 := (requestMovement_kept d m s).same
@[simp] theorem takeMovement_same (d : Door) (m : Movement) (s : State) : SameFields s (takeMovement d m s).1 :=
  (takeMovement_moves d m s).kept.same
@[simp] theorem tell_same (r : Requester) (g : List Tag) (a : Aperture) (o : Tag → OpOutcome) (s : State) :
    SameFields s (tell r g a o s) := (tell_moves r g a o s).kept.same
@[simp] theorem deny_same (a : Aperture) (r : Requester) (g : List Tag) (x : Reason) (s : State) :
    SameFields s (deny a r g x s) := (deny_moves a r g x s).kept.same
@[simp] theorem takeTarget_same (a : Aperture) (x : HeldTarget) (s : State) : SameFields s (takeTarget a x s) :=
  (takeTarget_moves a x s).kept.same
@[simp] theorem resetTarget_same (a : Aperture) (x : Actuator) (s : State) : SameFields s (resetTarget a x s) :=
  (resetTarget_moves a x s).kept.same
@[simp] theorem beginDrive_same (a : Aperture) (x : HeldTarget) (r : Requester) (g : List Tag) (s : State) :
    SameFields s (beginDrive a x r g s) := (beginDrive_moves a x r g s).kept.same
@[simp] theorem finishDrive_same (a : Aperture) (o : OpOutcome) (s : State) : SameFields s (finishDrive a o s) :=
  (finishDrive_moves a o s).kept.same
@[simp] theorem dropHeld_same (a : Aperture) (s : State) : SameFields s (dropHeld a s) :=
  (dropHeld_moves a s).kept.same
@[simp] theorem overrideDrive_same (a : Aperture) (s : State) : SameFields s (overrideDrive a s) :=
  (overrideDrive_moves a s).kept.same
@[simp] theorem requestRelease_same (r : Requester) (g : List Tag) (s : State) :
    SameFields s (requestRelease r g s).1 := (requestRelease_moves r g s).kept.same
@[simp] theorem latchFault_same (a : Aperture) (f : LatchFault) (s : State) : SameFields s (latchFault a f s) :=
  (latchFault_moves a f s).kept.same
@[simp] theorem latchSensed_same (a : Aperture) (q : LatchState) (b : Bool) (s : State) :
    SameFields s (latchSensed a q b s) := (latchSensed_moves a q b s).kept.same
@[simp] theorem childSensed_same (r : Rear) (q b : Bool) (s : State) : SameFields s (childSensed r q b s) :=
  (childSensed_moves r q b s).kept.same
@[simp] theorem stopMovement_same (d : Door) (o : Option OpOutcome) (s : State) : SameFields s (stopMovement d o s) :=
  (stopMovement_moves d o s).kept.same
@[simp] theorem removeFollowOn_same (d : Door) (o : Option OpOutcome) (s : State) :
    SameFields s (removeFollowOn d o s) := (removeFollowOn_moves d o s).kept.same
@[simp] theorem tellMotion_same (d : Door) (o : OpOutcome) (s : State) : SameFields s (tellMotion d o s) :=
  (tellMotion_moves d o s).kept.same
@[simp] theorem writeWindow_same (d : Door) (s : State) : SameFields s (writeWindow d [] s) :=
  (writeWindow_moves d s rfl).kept.same
@[simp] theorem writeWindow_applied_same (d : Door) (s : State) : SameFields s (writeWindow d [.applied] s) :=
  (writeWindow_moves d s rfl).kept.same
@[simp] theorem startMotor_same (d : Door) (m : Movement) (s : State) : SameFields s (startMotor d m s) :=
  (startMotor_moves d m s).kept.same
@[simp] theorem comeToRest_same (d : Door) (s : State) : SameFields s (comeToRest d s) :=
  (comeToRest_moves d s).kept.same
@[simp] theorem retire_same (t : Trigger) (o : RunOutcome) (s : State) : SameFields s (retire t o s) :=
  (retire_moves t o s).kept.same
@[simp] theorem activate_same (t : Trigger) (s : State) : SameFields s (activate t s) :=
  (activate_moves t s).kept.same
@[simp] theorem preempt_same (t : Trigger) (s : State) : SameFields s (preempt t s) := (preempt_moves t s).kept.same
@[simp] theorem testSpeedLock_same (s : State) : SameFields s (testSpeedLock s) := (testSpeedLock_moves s).kept.same
@[simp] theorem requestSearch_same (z : Zone) (p : Purpose) (w : List SearchWaiter) (s : State) :
    SameFields s (requestSearch z p w s) := (requestSearch_moves z p w s).kept.same

end Sys2Proof.Machine
end

