-- ==== Sys2Proof/Laws/Requests.lean ====
section
/-! SUPPORT. The form of every command's meaning: a host request of some payload length with an owner that waits for the
scan, or an event of a part that runs. -/

namespace Sys2Proof.Machine

open Sys2Proof

@[simp] theorem bytesOf_length (n x : Nat) : (bytesOf n x).length = n := by
  induction n generalizing x with
  | zero => rfl
  | succ n ih => simp [bytesOf, ih]

/-- A host request other than DEVICE_STATUS is a frame of its payload's length, and its owner waits for the scan. -/
theorem exec_request {c : Instr} {x : Byte × List Byte} (h : requestOf c = some x) (hc : c ≠ .deviceStatus) :
    ∃ owner, ∀ s, exec c s = hostRequest x.2.length (ready owner) s := by
  cases c <;> first
    | exact absurd rfl hc
    | (cases h
       simp only [List.length_append, List.length_cons, List.length_nil, bytesOf_length]
       exact ⟨_, fun _ => rfl⟩)
    | cases h

/-- The commands that reach a part held in a reset. -/
def reachesHeld : Instr → Bool
  | .powerOnReset => true
  | .lowVoltageReset _ => true
  | .partRestart => true
  | .rawInputChange _ => true
  | _ => false

/-- Every other command is an event of a part that runs. -/
theorem exec_event {c : Instr} (h : reachesHeld c = false) : ∃ f, ∀ s, exec c s = event f s := by
  cases c <;> first
    | exact ⟨_, fun _ => rfl⟩
    | cases h

/-- A request that is served goes to its owner. -/
theorem hostRequest_ready {n : Nat} {owner : State → State} {s : State} (h : Serving s) :
    hostRequest n (ready owner) s = .next (owner (taken n s)) := by
  rw [hostRequest_taken _ _ h.1.1 h.1.2, ready_done _ (by simpa using h.2)]

/-- A latch request by the host, whatever its target. -/
theorem exec_latchCommand (b : Byte) (x : HeldTarget) {s : State} (h : Serving s) :
    exec (latchCommand b x) s = .next (needs (apertureOf b) (takeHostLatch x) (taken 3 s)) := by
  cases x <;> exact hostRequest_ready h

/-- A transaction that does not open with READ is a request's. -/
theorem transaction_request {bytes : List Byte} (h : isRequest bytes = true) (s : State) :
    transaction bytes s = requestTransaction bytes s := by
  cases bytes with
  | nil => rfl
  | cons b rest =>
    have k : b ≠ 0 := by simpa [isRequest] using h
    simp only [transaction, if_neg k]

/-- An intact frame that the link is free to take is judged as it stands when taken. -/
theorem requestTransaction_taken {bytes : List Byte} {n : Nat} {s : State} (h : intact bytes = true)
    (hn : bytes.length = n + 3) (hl : s.link.state ≠ .working) :
    requestTransaction bytes s = judgeFrame bytes (taken n s) := by
  unfold requestTransaction
  simp only [h, if_true]
  split
  · next e => exact absurd (by simpa [validFrame] using e) hl
  · simp [taken, heard, hn]

end Sys2Proof.Machine
end

