-- ==== Sys2Proof/Laws/Tables.lean ====
section
/-! SUPPORT. The tables of the part and its slow state, which most commands leave as they were: one lemma an operation. -/

namespace Sys2Proof.Machine

open Sys2Proof

/-- The tables and the slow state that stand as they were. -/
@[simp] abbrev SameTables (s t : State) : Prop :=
  t.pending = s.pending ∧ t.power = s.power ∧ t.keys.recs = s.keys.recs ∧ t.keys.window = s.keys.window ∧
  t.link.settings = s.link.settings ∧ t.link.mask = s.link.mask ∧ t.engine.steps = s.engine.steps ∧
  t.engine.triggers = s.engine.triggers ∧ t.store.flash = s.store.flash ∧ t.store.scanDone = s.store.scanDone ∧
  t.sup.resetCause = s.sup.resetCause ∧ t.vehicle.speed = s.vehicle.speed ∧ t.vehicle.taken = s.vehicle.taken ∧
  t.vehicle.powerMode = s.vehicle.powerMode ∧ t.vehicle.supply = s.vehicle.supply ∧
  t.vehicle.supplyHold = s.vehicle.supplyHold ∧ t.entry.rfQueue = s.entry.rfQueue ∧
  t.latches.crashHold = s.latches.crashHold ∧ t.latches.interval = s.latches.interval ∧
  t.entry.processing = s.entry.processing ∧ t.store.inFlight = s.store.inFlight ∧
  keyWrites t.store = keyWrites s.store

theorem SameTables.refl (s : State) : SameTables s s := by simp [SameTables]

/-! ### A request's frame -/

@[simp] theorem wake_tables (w : WakeSource) (s : State) : SameTables s (wake w s) := by simp
@[simp] theorem returnToActive_tables (s : State) : SameTables s (returnToActive s) := by
  unfold returnToActive; split <;> simp
@[simp] theorem validFrame_tables (s : State) : SameTables s (validFrame s) := by simp [validFrame]
@[simp] theorem heard_tables (n : Nat) (s : State) : SameTables s (heard n s) := by simp [heard]
@[simp] theorem taken_tables (n : Nat) (s : State) : SameTables s (taken n s) := by simp [taken]
@[simp] theorem markOverrun_tables (s : State) : SameTables s (markOverrun s) := by simp [markOverrun]

/-! ### The crash -/

theorem crashHeld_moves (a : Aperture) (s : State) : Moves s (crashHeld a s) := by
  unfold crashHeld
  split
  · exact .refl s
  · split
    · exact (dropHeld_moves _ _).trans (resetTarget_moves _ _ _)
    · exact dropHeld_moves _ _
theorem crashChild_moves (a : Aperture) (s : State) : Moves s (crashChild a s) := by
  unfold crashChild
  split
  · split
    · exact (overrideDrive_moves _ _).trans (resetTarget_moves _ _ _)
    · exact .refl s
  · exact .refl s
theorem crashDrive_moves (a : Aperture) (s : State) : Moves s (crashUnlock.crashDrive a s) := by
  unfold crashUnlock.crashDrive
  dsimp only
  split
  · exact takeTarget_moves _ _ _
  · exact (takeTarget_moves _ _ _).trans (beginDrive_moves _ _ _ _ _)
theorem crashUnlock_moves (a : Aperture) (s : State) : Moves s (crashUnlock a s) := by
  unfold crashUnlock
  split
  · split
    · exact takeTarget_moves _ _ _
    · exact (overrideDrive_moves _ _).trans (crashDrive_moves _ _)
  · exact crashDrive_moves _ _
theorem crashAperture_moves (s : State) (a : Aperture) : Moves s (crashAperture s a) :=
  ((crashHeld_moves _ _).trans (crashChild_moves _ _)).trans (crashUnlock_moves _ _)
theorem crashWindow_moves (s : State) (d : Door) : Moves s (crashWindow s d) :=
  (stopMovement_moves _ _ _).trans (removeFollowOn_moves _ _ _)
theorem foldl_crashAperture_same (l : List Aperture) (s : State) : SameFields s (List.foldl crashAperture s l) :=
  (Moves.foldl crashAperture_moves l s).kept.same
theorem foldl_crashWindow_same (l : List Door) (s : State) : SameFields s (List.foldl crashWindow s l) :=
  (Moves.foldl crashWindow_moves l s).kept.same

/-! ### Windows -/

@[simp] theorem endRunning_same (d : Door) (o : OpOutcome) (s : State) : SameFields s (endRunning d o s) := by
  simp [endRunning]
@[simp] theorem recordFault_same (d : Door) (f : WindowFault) (s : State) : SameFields s (recordFault d f s) := by
  simp [recordFault]
@[simp] theorem windowFault_same (d : Door) (f : WindowFault) (s : State) : SameFields s (windowFault d f s) := by
  simp [windowFault]
@[simp] theorem pinch_same (d : Door) (s : State) : SameFields s (pinch d s) := by
  unfold pinch
  dsimp only
  split
  · split <;> simp
  · simp
@[simp] theorem topStop_same (d : Door) (s : State) : SameFields s (topStop d s) := by
  unfold topStop; simp
@[simp] theorem bottomStop_same (d : Door) (s : State) : SameFields s (bottomStop d s) := by
  unfold bottomStop
  dsimp only
  split
  · simp
  · split <;> simp
@[simp] theorem classifyStall_same (d : Door) (x : Direction) (s : State) : SameFields s (classifyStall d x s) := by
  unfold classifyStall
  dsimp only
  split
  · split
    · simp
    · split <;> simp
  · split
    · simp
    · split
      · split <;> simp
      · simp
@[simp] theorem runningEdge_same (d : Door) (m : Motion) (p : Nat) (s : State) :
    SameFields s (runningEdge d m p s) := by
  unfold runningEdge
  dsimp only
  split
  · simp
  · split
    · split
      · split
        · simp
        · split <;> simp
      · split <;> simp
    · split <;> simp
@[simp] theorem coastingEdge_same (d : Door) (m : Motion) (s : State) : SameFields s (coastingEdge d m s) := by
  unfold coastingEdge
  dsimp only
  split <;> simp
@[simp] theorem switchNeutral_same (d : Door) (o : Bool) (s : State) : SameFields s (switchNeutral d o s) := by
  unfold switchNeutral
  dsimp only
  split
  · simp
  · split <;> simp
@[simp] theorem switchUpgrade_same (d : Door) (x : Direction) (o : Bool) (s : State) :
    SameFields s (switchUpgrade d x o s) := by
  unfold switchUpgrade
  dsimp only
  split
  · split <;> simp
  · simp
@[simp] theorem switchRequest_same (d : Door) (x : Direction) (b o : Bool) (s : State) :
    SameFields s (switchRequest d x b o s) := by
  unfold switchRequest
  dsimp only
  split
  · split
    · simp
    · simp
    · split <;> simp
  · split <;> simp
@[simp] theorem switchPress_same (d : Door) (x : Direction) (b o : Bool) (s : State) :
    SameFields s (switchPress d x b o s) := by
  unfold switchPress
  dsimp only
  split
  · simp
  · split <;> simp
@[simp] theorem switchDelivery_same (d : Door) (o : Bool) (x y : SwitchPos) (s : State) :
    SameFields s (switchDelivery d o x y s) := by
  unfold switchDelivery
  dsimp only
  repeat' split
  all_goals simp

@[simp] theorem hallEdge_tables (d : Door) (g : Nat) (s : State) : SameTables s (hallEdge d g s) := by
  unfold hallEdge
  dsimp only
  split
  · exact .refl s
  · repeat' split
    all_goals simp
@[simp] theorem stallTimeout_tables (d : Door) (s : State) : SameTables s (stallTimeout d s) := by
  unfold stallTimeout; dsimp only; split
  · split <;> simp
  · simp
@[simp] theorem noPulses_tables (d : Door) (s : State) : SameTables s (noPulses d s) := by
  unfold noPulses; dsimp only; split
  · split <;> simp
  · simp
@[simp] theorem runLimit_tables (d : Door) (s : State) : SameTables s (runLimit d s) := by
  unfold runLimit; dsimp only; split <;> simp
@[simp] theorem coastEnd_tables (d : Door) (s : State) : SameTables s (coastEnd d s) := by
  unfold coastEnd; dsimp only; split <;> simp
@[simp] theorem motorStart_tables (d : Door) (s : State) : SameTables s (motorStart d s) := by
  unfold motorStart; dsimp only; split
  · split <;> simp
  · simp

/-! ### Latches -/

@[simp] theorem driveLimit_tables (a : Aperture) (s : State) : SameTables s (driveLimit a s) := by
  unfold driveLimit; split
  · simp
  · dsimp only; split
    · split <;> simp
    · simp
@[simp] theorem startHeld_same (a : Aperture) (h : Held) (s : State) : SameFields s (startHeld a h s) := by
  unfold startHeld; dsimp only; split
  · simp
  · split
    · simp
    · split <;> split <;> simp
@[simp] theorem heldStart_tables (a : Aperture) (s : State) : SameTables s (heldStart a s) := by
  unfold heldStart; split
  · simp
  · split
    · simp
    · split
      · simp
      · split <;> simp

/-! ### Inputs -/

@[simp] theorem deliverSwitch_tables (w : WinSwitch) (p : SwitchPos) (s : State) :
    SameTables s (deliverSwitch w p s) := by simp [deliverSwitch]
@[simp] theorem releaseSwitch_tables (s : State) (w : WinSwitch) : SameTables s (releaseSwitch s w) := by
  unfold releaseSwitch; split <;> simp
theorem foldl_releaseSwitch_tables (l : List WinSwitch) (s : State) :
    SameTables s (l.foldl releaseSwitch s) := by
  induction l generalizing s with
  | nil => simp
  | cons w l ih =>
    have h := ih (releaseSwitch s w)
    simpa using h
@[simp] theorem closeGate_tables (s : State) : SameTables s (closeGate s) := by
  unfold closeGate; split
  · simp
  · exact foldl_releaseSwitch_tables _ _
@[simp] theorem switchQualified_tables (w : WinSwitch) (s : State) : SameTables s (switchQualified w s) := by
  unfold switchQualified; dsimp only; split
  · simp
  · split <;> simp
@[simp] theorem handlePull_tables (d : Door) (s : State) : SameTables s (handlePull d s) := by
  unfold handlePull; split <;> simp
@[simp] theorem rockerPress_tables (f : Front) (b : Bool) (s : State) : SameTables s (rockerPress f b s) := by
  unfold rockerPress; dsimp only; split <;> simp
@[simp] theorem childPress_tables (s : State) : SameTables s (childPress s) := by
  unfold childPress; simp
@[simp] theorem takeNow_tables (x : Deferred) (s : State) : SameTables s (takeNow x s) := by
  unfold takeNow; split <;> simp
@[simp] theorem defer_tables (x : Deferred) (s : State) : SameTables s (defer x s) := by simp [defer]
@[simp] theorem takeOrDefer_tables (x : Deferred) (s : State) : SameTables s (takeOrDefer x s) := by
  unfold takeOrDefer; split <;> simp
@[simp] theorem deferredTake_tables (s : State) : SameTables s (deferredTake s) := by
  unfold deferredTake; split <;> simp
@[simp] theorem routeTailgate_tables (s : State) : SameTables s (routeTailgate s) := by
  unfold routeTailgate; split <;> simp
@[simp] theorem tailgatePressed_tables (s : State) : SameTables s (tailgatePressed s) := by
  unfold tailgatePressed; split <;> simp
theorem foldl_tailgateSearch_tables (l : List Deferred) (s : State) :
    SameTables s (l.foldl (fun s _ => requestSearch .rear .tailgateButton [] s) s) := by
  induction l generalizing s with
  | nil => exact SameTables.refl s
  | cons x l ih => rw [List.foldl_cons]; simpa using ih (requestSearch .rear .tailgateButton [] s)
@[simp] theorem routeWaiting_tables (s : State) : SameTables s (routeWaiting s) := by
  unfold routeWaiting
  dsimp only
  split
  · simpa using foldl_tailgateSearch_tables _ _
  · exact SameTables.refl s
@[simp] theorem pairDelivered_tables (a : Aperture) (v : Levels) (b : Bool) (s : State) :
    SameTables s (pairDelivered a v b s) := by
  unfold pairDelivered; dsimp only; split <;> simp
@[simp] theorem endRetained_tables (s : State) : SameTables s (endRetained s) := by simp [endRetained]
@[simp] theorem stopRelock_tables (s : State) : SameTables s (stopRelock s) := by simp [stopRelock]
@[simp] theorem armSpeedLock_tables (s : State) : SameTables s (armSpeedLock s) := by simp [armSpeedLock]
@[simp] theorem ajarDelivered_tables (a : Aperture) (b : Bool) (s : State) : SameTables s (ajarDelivered a b s) := by
  unfold ajarDelivered; dsimp only; split
  · split <;> simp
  · simp
@[simp] theorem touched_tables (p : Pad) (s : State) : SameTables s (touched p s) := by
  unfold touched; dsimp only; split <;> simp
@[simp] theorem padExpiry_tables (p : Pad) (s : State) : SameTables s (padExpiry p s) := by
  unfold padExpiry; dsimp only; split <;> simp

/-- Every input's qualification but the crash line's keeps the tables. -/
theorem qualify_tables {i : Input} (h : i ≠ .crashLine) (s : State) : SameTables s (qualify i s) := by
  cases i with
  | crashLine => exact absurd rfl h
  | pad p => exact padExpiry_tables p s
  | _ =>
    unfold qualify
    dsimp only
    split
    · first
        | (simp; done)
        | (split <;> simp)
    · exact .refl s

/-! ### Entry, engine, link -/

@[simp] theorem passiveResult_tables (x : Search) (t : Trigger) (c : AccessCommand) (s : State) :
    SameTables s (passiveResult x t c s) := by
  unfold passiveResult; split
  · simp
  · simp [writeAccess]
@[simp] theorem insideResult_tables (b : Bool) (s : State) (w : SearchWaiter) :
    SameTables s (insideResult b s w) := by
  unfold insideResult; split
  · simp
  · split
    · simp
    · split <;> simp
theorem foldl_insideResult_tables (b : Bool) (l : List SearchWaiter) (s : State) :
    SameTables s (l.foldl (insideResult b) s) := by
  induction l generalizing s with
  | nil => simp
  | cons w l ih =>
    have h := ih (insideResult b s w)
    simpa using h

end Sys2Proof.Machine
end

