-- ==== Sys2Proof/Laws/Bounds.lean ====
section
/-! SUPPORT. The credit, the travel, the position, the pinch count and the pinch score stay within their ranges: what the
units do, one lemma an operation. -/

namespace Sys2Proof.Machine

open Sys2Proof

/-- Whatever latch, window and engine operations do, every unit stays within its bounds. -/
theorem Moves.within {s t : State} (h : Moves s t) : unitsWithin s → unitsWithin t := by
  induction h with
  | trans _ _ h k => exact fun w => k (h w)
  | latch a u s h =>
    refine fun w => ⟨fun b => ?_, w.2⟩
    rw [latchAt_setLatch]
    split
    · exact h (w.1 a)
    · exact w.1 b
  | window d x s h =>
    refine fun w => ⟨w.1, fun b => ?_⟩
    rw [windowAt_setWindow]
    split
    · exact h (w.2 d)
    · exact w.2 b
  | _ => exact id

theorem finishEvent_within {s : State} (h : unitsWithin s) : unitsWithin (finishEvent s) :=
  (finishEvent_moves s).within h

/-! ### Ends of a movement -/

theorem endRunning_moves (d : Door) (o : OpOutcome) (s : State) : Moves s (endRunning d o s) :=
  (tellMotion_moves d o s).trans (.window _ _ _ fun h => h.coast _)

theorem recordFault_moves (d : Door) (f : WindowFault) (s : State) : Moves s (recordFault d f s) :=
  (Moves.window d _ s (by exact id)).trans (.raise _ _)

theorem windowFault_moves (d : Door) (f : WindowFault) (s : State) : Moves s (windowFault d f s) :=
  (recordFault_moves d f s).trans (endRunning_moves _ _ _)

theorem pinch_moves (d : Door) (s : State) : Moves s (pinch d s) := by
  have h : Moves s (raise .pinch (endRunning d (.fault .pinch) s)) := (endRunning_moves _ _ s).trans (.raise _ _)
  unfold pinch
  dsimp only
  have k := h.trans (Moves.window d { windowAt (raise .pinch (endRunning d (.fault .pinch) s)) d with
    pinchCount := min 3 ((windowAt s d).pinchCount + 1) } _ fun w => ⟨w.1, w.2.1, Nat.min_le_left _ _, w.2.2.2⟩)
  split
  · split
    · exact k
    · exact (k.trans (removeFollowOn_moves d (some .overridden) _)).trans (.window d _ _ (by exact id))
  · exact k

theorem topStop_moves (d : Door) (s : State) : Moves s (topStop d s) := by
  unfold topStop
  dsimp only
  refine (Moves.window d _ s ?_).trans (endRunning_moves _ _ _)
  exact fun h => ⟨h.1, fun _ => Nat.zero_le _, Nat.zero_le _, h.2.2.2⟩

theorem bottomStop_moves (d : Door) (s : State) : Moves s (bottomStop d s) := by
  unfold bottomStop
  dsimp only
  split
  · next l e =>
    refine (Moves.window d _ s ?_).trans (endRunning_moves _ _ _)
    refine fun h => ⟨h.1, fun _ => ?_, h.2.2.1, h.2.2.2⟩
    simp only [e, bound]
    omega
  · split
    · next b =>
      refine (Moves.window d _ s ?_).trans (endRunning_moves _ _ _)
      refine fun h => ⟨?_, fun _ => ?_, h.2.2.1, h.2.2.2⟩
      · rintro l ⟨⟩
        exact b
      · simp only [bound]
        omega
    · exact (endRunning_moves _ _ s).trans (.raise _ _)

theorem classifyStall_moves (d : Door) (x : Direction) (s : State) : Moves s (classifyStall d x s) := by
  unfold classifyStall
  dsimp only
  repeat' split
  all_goals first
    | exact topStop_moves d s
    | exact pinch_moves d s
    | exact windowFault_moves d _ s
    | exact bottomStop_moves d s

/-! ### Edges -/

theorem nextScore_le {n e th : Nat} (h : n ≤ 1023) : nextScore n e th ≤ 1023 := by
  unfold nextScore
  split
  · exact Nat.min_le_left _ _
  · omega

/-- Counting an edge that does not leave the bound keeps the position within it. -/
theorem windowWithin.countEdge {w : Window} (h : windowWithin w) {dir : Direction}
    (k : (w.known && edgeLeavesBound w dir) = false) : windowWithin (countEdge w dir) := by
  unfold Machine.countEdge
  split
  · next known =>
    rw [known, Bool.true_and] at k
    refine ⟨h.1, fun _ => ?_, h.2.2.1, h.2.2.2⟩
    have b := h.2.1 known
    cases dir with
    | closing => dsimp only; omega
    | opening =>
      simp only [edgeLeavesBound, decide_eq_false_iff_not] at k
      dsimp only
      omega
  · exact h

/-- A running edge's window before it is counted: the pulse joins the motion record. -/
theorem windowWithin.pulse {w : Window} (h : windowWithin w) {m : Motion} (e : w.motion = some m) (now n : Nat) :
    windowWithin { w with lastEdge := some now, motion := some { m with pulses := n } } :=
  ⟨h.1, h.2.1, h.2.2.1, by rintro _ ⟨⟩; exact h.2.2.2 m e⟩

theorem runningEdge_moves {d : Door} {m : Motion} {s : State} (e : (windowAt s d).motion = some m) (p : Nat) :
    Moves s (runningEdge d m p s) := by
  unfold runningEdge
  dsimp only
  split
  · refine (Moves.window d _ s ?_).trans (windowFault_moves _ _ _)
    exact fun h => ⟨h.1, (fun k => absurd (show false = true from k) (by decide)), h.2.2.1,
      (h.pulse e s.now (m.pulses + 1)).2.2.2⟩
  · next k =>
    rw [Bool.not_eq_true] at k
    have c : Moves s (setWindow d (countEdge { windowAt s d with
        lastEdge := some s.now, motion := some { m with pulses := m.pulses + 1 } } m.move.dir) s) :=
      .window _ _ s fun h => (h.pulse e s.now (m.pulses + 1)).countEdge k
    split
    · split
      · next ev =>
        have v : ∀ l, Moves s (setWindow d { (countEdge { windowAt s d with
            lastEdge := some s.now, motion := some { m with pulses := m.pulses + 1 } } m.move.dir) with
            motion := some (evaluate (countEdge { windowAt s d with
              lastEdge := some s.now, motion := some { m with pulses := m.pulses + 1 } } m.move.dir)
                { m with pulses := m.pulses + 1 } l p s.vehicle.supply) } s) := fun l =>
          .window _ _ s fun h => by
            have b := (h.pulse e s.now (m.pulses + 1)).countEdge k
            refine ⟨b.1, b.2.1, b.2.2.1, ?_⟩
            rintro _ ⟨⟩
            simp only [evaluated, Bool.and_eq_true, decide_eq_true_eq] at ev
            exact ⟨nextScore_le (h.2.2.2 m e).1, .inr ⟨ev.1.1.1.1.1, ev.1.1.1.1.2⟩⟩
        split
        · exact (v _).trans (pinch_moves _ _)
        · split
          · exact (v _).trans (endRunning_moves _ _ _)
          · exact v _
      · split
        · exact c.trans (endRunning_moves _ _ _)
        · exact c
    · split
      · exact c.trans (endRunning_moves _ _ _)
      · exact c

theorem coastingEdge_moves (d : Door) (m : Motion) (s : State) : Moves s (coastingEdge d m s) := by
  unfold coastingEdge
  dsimp only
  split
  · refine (Moves.window d _ s ?_).trans (recordFault_moves _ _ _)
    exact fun h => ⟨h.1, (fun k => absurd (show false = true from k) (by decide)), h.2.2.1, h.2.2.2⟩
  · next k =>
    rw [Bool.not_eq_true] at k
    refine .window _ _ s fun h => ?_
    have b : windowWithin { windowAt s d with lastEdge := some s.now } := h
    exact b.countEdge k

/-! ### The Window Units' events -/

theorem hallEdge_within (d : Door) (g : Nat) {s : State} (h : unitsWithin s) : unitsWithin (hallEdge d g s) := by
  unfold hallEdge
  dsimp only
  split
  · exact h
  · next m e =>
    by_cases k : (windowAt s d).phase = .running ∨ (windowAt s d).phase = .coasting
    · simp only [if_pos k]
      have c : unitsWithin (clockTo (edgeOrigin (windowAt s d) m + g) s) := h
      split
      · split
        · split
          · exact c
          · exact (runningEdge_moves (s := clockTo _ s) e _).within c
        · exact (runningEdge_moves (s := clockTo _ s) e _).within c
      · split
        · split
          · exact c
          · exact (coastingEdge_moves _ _ (clockTo _ s)).within c
        · exact (coastingEdge_moves _ _ (clockTo _ s)).within c
      · exact c
      · exact c
    · simp only [if_neg k]
      split
      · next r => exact absurd (.inl r) k
      · next r => exact absurd (.inr r) k
      · exact h
      · exact h

theorem stallTimeout_within (d : Door) {s : State} (h : unitsWithin s) : unitsWithin (stallTimeout d s) := by
  unfold stallTimeout
  dsimp only
  split
  · split
    · exact h
    · exact (classifyStall_moves _ _ (clockTo _ s)).within h
  · exact h

theorem noPulses_within (d : Door) {s : State} (h : unitsWithin s) : unitsWithin (noPulses d s) := by
  unfold noPulses
  dsimp only
  split
  · split
    · exact (windowFault_moves _ _ (clockTo _ s)).within h
    · exact h
  · exact h

theorem runLimit_within (d : Door) {s : State} (h : unitsWithin s) : unitsWithin (runLimit d s) := by
  unfold runLimit
  dsimp only
  split
  · exact (windowFault_moves _ _ (clockTo _ s)).within h
  · exact h

theorem coastEnd_within (d : Door) {s : State} (h : unitsWithin s) : unitsWithin (coastEnd d s) := by
  unfold coastEnd
  dsimp only
  split
  · exact (comeToRest_moves _ (clockTo _ s)).within h
  · exact h

theorem motorStart_within (d : Door) {s : State} (h : unitsWithin s) : unitsWithin (motorStart d s) := by
  unfold motorStart
  dsimp only
  split
  · split
    · exact h
    · exact (startMotor_moves _ _ s).within h
  · exact h

/-! ### The crash and the scan -/

theorem crashLatches_within {s : State} (h : unitsWithin s) : unitsWithin (crashLatches s) := by
  have k : ∀ x : State, unitsWithin x → unitsWithin (raise .crash (allApertures.foldl crashAperture x)) :=
    fun x w => ((Moves.foldl crashAperture_moves allApertures x).trans (.raise .crash _)).within w
  refine k _ ?_
  repeat' split
  all_goals exact h

/-- A window record that the scan hands over has its travel in range. -/
theorem receivedWindow_travel (f : Flash) (d : Door) (l : Nat) (h : (receivedWindow f d).travel = some l) :
    200 ≤ l ∧ l ≤ 4000 := by
  have sound : ∀ x : WindowRec, judgedWindow f d = .sound x → windowInRange x = true := by
    intro x e
    unfold judgedWindow judgeCopy at e
    split at e
    · cases e
    · cases e
    · split at e
      · next k => cases e; exact k.2
      · cases e
  revert h
  unfold receivedWindow received
  split
  · next x e =>
    intro h
    have r := sound x e
    rw [windowInRange, h] at r
    simp only [Bool.and_eq_true] at r
    simpa [within] using r.1.1
  · split <;> exact fun h => nomatch h
  · exact fun h => nomatch h

theorem loadWindow_within {r : WindowRec} (t : ∀ l, r.travel = some l → 200 ≤ l ∧ l ≤ 4000) {w : Window}
    (h : windowWithin w) : windowWithin (loadWindow r w) := by
  refine ⟨t, fun k => ?_, h.2.2.1, h.2.2.2⟩
  simp only [loadWindow, Bool.and_eq_true, decide_eq_true_eq] at k
  exact k.2

theorem loadWindows_within {s : State} (h : unitsWithin s) : unitsWithin (loadWindows s) :=
  (Moves.foldl (f := fun s d => setWindow d (loadWindow (receivedWindow s.store.flash d) (windowAt s d)) s)
    (fun s d => .window _ _ s (loadWindow_within (receivedWindow_travel _ d))) allDoors s).within h

end Sys2Proof.Machine
end

