-- ==== Sys2Proof/Laws/Identities.lean ====
section
/-! SUPPORT. How the identities of the key records and of their stored copies stay distinct: what the invariant depends
on, and that a host change, a frame judged, a write's start and completion, the scan and a reset keep it (01, R2). -/

namespace Sys2Proof.Machine

open Sys2Proof

/-! ### What the stored copies name -/

theorem names_received {f : Flash} {i : Fin 8} {n : BitVec 32} :
    names (receivedKey f i) n ↔ ∃ k, judgedKey f i = .sound k ∧ names k n := by
  unfold receivedKey received
  cases e : judgedKey f i with
  | sound k => simp
  | damaged =>
    constructor
    · rintro ⟨h, _⟩; cases h
    · rintro ⟨k, h, _⟩; cases h
  | erased =>
    constructor
    · dsimp only; split <;> (rintro ⟨h, _⟩; cases h)
    · rintro ⟨k, h, _⟩; cases h

/-- What the stored copies name is read off the key records' copies. -/
theorem names_received_of_keys {f g : Flash} (h : g.keys = f.keys) (i : Fin 8) (n : BitVec 32) :
    names (receivedKey g i) n ↔ names (receivedKey f i) n := by
  rw [names_received, names_received]
  unfold judgedKey
  rw [h]

theorem writeFlash_keys {id : RecordId} {f : Flash} (c : Content) (h : isKey id = false) :
    (writeFlash id c f).keys = f.keys := by
  unfold writeFlash
  split <;> first | rfl | cases h

theorem writeFlash_keys_of {id : RecordId} {f g : Flash} (c : Content) (h : g.keys = f.keys) :
    (writeFlash id c g).keys = (writeFlash id c f).keys := by
  unfold writeFlash
  split <;> first | exact h | (dsimp only; rw [h])

theorem written_keys {f g : Flash} (l : List (RecordId × Content)) (h : g.keys = f.keys) :
    (written g l).keys = (written f (l.filter fun p => isKey p.1)).keys := by
  unfold written
  induction l generalizing f g with
  | nil => exact h
  | cons p l ih =>
    rw [List.foldl_cons]
    cases b : isKey p.1 with
    | true => rw [List.filter_cons_of_pos (by simp [b])]; exact ih (writeFlash_keys_of _ h)
    | false =>
      rw [List.filter_cons_of_neg (by simp [b])]
      exact ih ((writeFlash_keys _ b).trans h)

theorem receivedApart_of_keys {f g : Flash} (h : g.keys = f.keys) : receivedApart g ↔ receivedApart f := by
  unfold receivedApart sameIdentity
  simp only [names_received_of_keys h]

theorem writesApart.now {f : Flash} {l : List (RecordId × Content)} (h : writesApart f l) : receivedApart f := by
  cases l with
  | nil => exact h
  | cons p l => exact h.1

/-- Only the writes of key records count. -/
theorem writesApart_filter {f g : Flash} (l : List (RecordId × Content)) (h : g.keys = f.keys) :
    writesApart g l ↔ writesApart f (l.filter fun p => isKey p.1) := by
  induction l generalizing f g with
  | nil => exact receivedApart_of_keys h
  | cons p l ih =>
    rw [show writesApart g (p :: l) = (receivedApart g ∧ writesApart (writeFlash p.1 p.2 g) l) from rfl]
    cases b : isKey p.1 with
    | true =>
      rw [List.filter_cons_of_pos (by simp [b])]
      exact and_congr (receivedApart_of_keys h) (ih (writeFlash_keys_of _ h))
    | false =>
      rw [List.filter_cons_of_neg (by simp [b]), ih ((writeFlash_keys _ b).trans h)]
      refine ⟨And.right, fun k => ⟨(receivedApart_of_keys h).2 ?_, k⟩⟩
      exact writesApart.now k

/-- One write more. -/
theorem writesApart_append {f : Flash} {l : List (RecordId × Content)} {p : RecordId × Content}
    (h : writesApart f l) (k : receivedApart (written f (l ++ [p]))) : writesApart f (l ++ [p]) := by
  induction l generalizing f with
  | nil => exact ⟨h, k⟩
  | cons q l ih => exact ⟨h.1, ih h.2 k⟩

/-- A key record written is sound or damaged, the others stand. -/
theorem judgedKey_write (f : Flash) (i j : Fin 8) (k : KeyStored) :
    judgedKey (writeFlash (.key i) (.key k) f) j =
      if j = i then (if keyInRange k = true then .sound k else .damaged) else judgedKey f j := by
  unfold judgedKey writeFlash
  dsimp only
  by_cases e : j = i
  · subst e
    rw [look_put_same, if_pos rfl]
    unfold judgeCopy
    simp
  · rw [if_neg e, look_put, if_neg (Ne.symm e)]

theorem names_write {f : Flash} {i j : Fin 8} {k : KeyStored} {n : BitVec 32}
    (h : names (receivedKey (writeFlash (.key i) (.key k) f) j) n) :
    j = i ∧ names k n ∨ j ≠ i ∧ names (receivedKey f j) n := by
  obtain ⟨x, e, m⟩ := names_received.1 h
  rw [judgedKey_write] at e
  by_cases c : j = i
  · rw [if_pos c] at e
    split at e
    · cases e; exact .inl ⟨c, m⟩
    · cases e
  · rw [if_neg c] at e
    exact .inr ⟨c, names_received.2 ⟨x, e, m⟩⟩

theorem names_damage {id : RecordId} {f : Flash} {j : Fin 8} {n : BitVec 32}
    (h : names (receivedKey (damageFlash id f) j) n) : names (receivedKey f j) n := by
  cases id with
  | key i =>
    obtain ⟨x, e, m⟩ := names_received.1 h
    unfold damageFlash judgedKey at e
    dsimp only at e
    rw [look_put] at e
    split at e
    · unfold judgeCopy at e; cases e
    · exact names_received.2 ⟨x, e, m⟩
  | _ => exact (names_received_of_keys (by rfl) _ _).1 h

theorem receivedApart.of_names {f g : Flash} (h : receivedApart f)
    (k : ∀ i n, names (receivedKey g i) n → names (receivedKey f i) n) : receivedApart g :=
  fun i j d ⟨n, a, b⟩ => h i j d ⟨n, k _ _ a, k _ _ b⟩

/-! ### What keeps the invariant -/

/-- The parts that the invariant of the identities speaks of stand as they were. -/
structure KeysKept (s t : State) : Prop where
  recs : t.keys.recs = s.keys.recs
  processing : t.entry.processing = s.entry.processing
  flash : t.store.flash = s.store.flash
  scanDone : t.store.scanDone = s.store.scanDone
  inFlight : t.store.inFlight = s.store.inFlight
  keyWrites : keyWrites t.store = keyWrites s.store

theorem KeysKept.refl (s : State) : KeysKept s s := ⟨rfl, rfl, rfl, rfl, rfl, rfl⟩

theorem KeysKept.trans {s t u : State} (h : KeysKept s t) (k : KeysKept t u) : KeysKept s u :=
  ⟨k.recs.trans h.recs, k.processing.trans h.processing, k.flash.trans h.flash, k.scanDone.trans h.scanDone,
   k.inFlight.trans h.inFlight, k.keyWrites.trans h.keyWrites⟩

theorem SameFields.keys {s t : State} (h : SameFields s t) : KeysKept s t := by
  constructor <;> simp_all [SameFields]

theorem SameTables.keys {s t : State} (h : SameTables s t) : KeysKept s t := by
  constructor <;> simp_all [SameTables]

theorem isKey_of {e : RecordId} {i : Fin 8} (h : e = .key i) : isKey e = true := by rw [h]; rfl

theorem isKey_iff {e : RecordId} : isKey e = true ↔ ∃ i, e = .key i := by
  cases e <;> simp [isKey]

theorem toCome_filter (x : Store) : (toCome x).filter (fun p => isKey p.1) =
    ((x.inFlight.toList.filter fun e => isKey e.id) ++ (keyWrites x).1).map fun e => (e.id, e.content) := by
  unfold toCome keyWrites
  rw [List.filter_map, ← List.filter_append]
  rfl

theorem apartFromKeys_iff {e : WriteEntry} :
    apartFromKeys e ↔ isKey e.id = false ∧ e.waiters.filter keyWaiter = [] := by
  unfold apartFromKeys
  constructor
  · intro h
    constructor
    · cases b : isKey e.id with
      | false => rfl
      | true => obtain ⟨i, q⟩ := isKey_iff.1 b; exact absurd q (h i).1
    · rw [List.filter_eq_nil_iff]
      intro w hw
      cases w with
      | counterPersist i => exact absurd hw (h i).2.2
      | linkChange i => exact absurd hw (h i).2.1
      | _ => exact Bool.false_ne_true
  · rintro ⟨h, k⟩ i
    rw [List.filter_eq_nil_iff] at k
    refine ⟨fun q => ?_, fun q => k _ q rfl, fun q => k _ q rfl⟩
    rw [isKey_of q] at h
    cases h

/-- Every queued write of another record stands apart exactly when no key waiter is among theirs. -/
theorem apart_iff_waiters (x : Store) :
    (∀ e ∈ x.queue, isKey e.id = false → apartFromKeys e) ↔ (keyWrites x).2.1 = [] := by
  unfold keyWrites
  simp only [List.flatMap_eq_nil_iff]
  refine forall_congr' fun e => forall_congr' fun _ => ?_
  rw [apartFromKeys_iff]
  cases isKey e.id <;> simp

theorem queue_key {x y : Store} (h : keyWrites y = keyWrites x) {e : WriteEntry} (k : isKey e.id = true) :
    e ∈ y.queue ↔ e ∈ x.queue := by
  have a : ∀ z : Store, e ∈ z.queue ↔ e ∈ (keyWrites z).1 := fun z => by simp [keyWrites, k]
  rw [a, a, h]

theorem queue_slot {x y : Store} (h : keyWrites y = keyWrites x) (i : Fin 8) :
    (y.queue.filter fun e => e.id = .key i) = x.queue.filter fun e => e.id = .key i := by
  have a : ∀ z : Store, (z.queue.filter fun e => e.id = .key i) =
      (keyWrites z).1.filter fun e => e.id = .key i := fun z => by
    unfold keyWrites
    rw [List.filter_filter]
    refine List.filter_congr fun e _ => ?_
    by_cases q : e.id = .key i
    · simp [q, isKey]
    · simp [q]
  rw [a, a, h]

theorem keyAt_of_recs {s t : State} (h : t.keys.recs = s.keys.recs) (i : Fin 8) : keyAt t i = keyAt s i := by
  unfold keyAt; rw [h]

/-- The invariant of the identities depends on these parts alone. -/
theorem keysInvariant.kept {s t : State} (h : keysInvariant s) (k : KeysKept s t) : keysInvariant t := by
  obtain ⟨a, w, l, q, f, c, d, r⟩ := h
  have key := keyAt_of_recs k.recs
  have come : (toCome t.store).filter (fun p => isKey p.1) = (toCome s.store).filter fun p => isKey p.1 := by
    rw [toCome_filter, toCome_filter, k.inFlight, k.keyWrites]
  have other : ∀ e ∈ t.store.queue, isKey e.id = false → apartFromKeys e := by
    rw [apart_iff_waiters, k.keyWrites, ← apart_iff_waiters]
    intro e m n
    rcases q.1 e m with x | ⟨i, x, _⟩
    · exact x
    · rw [isKey_of x] at n; cases n
  refine ⟨?_, ?_, ?_, ⟨?_, ?_⟩, ?_, ?_, ?_, ?_⟩
  · intro i j; rw [key, key]; exact a i j
  · rw [writesApart_filter _ rfl, k.flash, come, ← writesApart_filter _ rfl]; exact w
  · intro e i n x
    rw [key]
    refine l (k.scanDone ▸ e) i n ?_
    rw [names_received_of_keys (written_keys _ rfl)] at x ⊢
    rwa [come, k.flash] at x
  · intro e m
    cases b : isKey e.id with
    | false => exact .inl (other e m b)
    | true =>
      rcases q.1 e ((queue_key k.keyWrites b).1 m) with x | ⟨i, x, y, z⟩
      · exact .inl x
      · exact .inr ⟨i, x, y, by rwa [key]⟩
  · intro i; rw [queue_slot k.keyWrites]; exact q.2 i
  · intro e m
    rcases f e (k.inFlight ▸ m) with x | ⟨i, x, y⟩
    · exact .inl x
    · refine .inr ⟨i, x, y.imp_right fun ⟨y, z, v⟩ => ⟨y, by rwa [key], fun x' m' n' => ?_⟩⟩
      exact v x' ((queue_key k.keyWrites (isKey_of n')).1 m') n'
  · intro i e
    rw [k.processing]
    exact c i (by rwa [← key])
  · intro e
    obtain ⟨x, y⟩ := d (k.scanDone ▸ e)
    refine ⟨k.inFlight.trans x, fun e m => ?_⟩
    cases b : isKey e.id with
    | false => exact other e m b
    | true => exact y e ((queue_key k.keyWrites b).1 m)
  · intro p m i e
    refine r p ?_ i e
    have a : ∀ z : Store, p ∈ z.repair ↔ p ∈ (keyWrites z).2.2 := fun z => by
      simp [keyWrites, isKey_of e]
    rw [a, ← k.keyWrites, ← a]; exact m

/-! ### One record -/

/-- A record whose stored fields and marker stand. -/
theorem keysInvariant.setKey {s : State} (h : keysInvariant s) {i : Fin 8} {k : KeyRecord}
    (hs : k.stored = (keyAt s i).stored) (hm : k.marker = (keyAt s i).marker) : keysInvariant (setKey i k s) := by
  have st : ∀ j, (keyAt (Machine.setKey i k s) j).stored = (keyAt s j).stored := fun j => by
    rw [keyAt_setKey]; split
    · next e => rw [hs, e]
    · rfl
  have mk : ∀ j, (keyAt (Machine.setKey i k s) j).marker = (keyAt s j).marker := fun j => by
    rw [keyAt_setKey]; split
    · next e => rw [hm, e]
    · rfl
  obtain ⟨a, w, l, q, f, c, d, r⟩ := h
  refine ⟨fun x y => by rw [st, st]; exact a x y, w, fun e x n => by rw [st]; exact l e x n, ⟨fun e m => ?_, q.2⟩,
    fun e m => ?_, fun x => by rw [mk]; exact c x, d, r⟩
  · exact (q.1 e m).imp_right fun ⟨x, y, z, v⟩ => ⟨x, y, z, by rwa [mk]⟩
  · exact (f e m).imp_right fun ⟨x, y, z⟩ => ⟨x, y, z.imp_right fun ⟨z, v, u⟩ => ⟨z, by rwa [mk], u⟩⟩

/-- A marker cleared, with no write of its record standing. -/
theorem keysInvariant.clearMarker {s : State} (h : keysInvariant s) {i : Fin 8}
    (hq : ∀ e ∈ s.store.queue, e.id ≠ .key i) (hf : s.store.inFlight = none) :
    keysInvariant (clearMarker i s) := by
  have st : ∀ j, (keyAt (Machine.clearMarker i s) j).stored = (keyAt s j).stored := fun j => by
    unfold Machine.clearMarker; rw [keyAt_setKey]; split
    · next e => rw [e]
    · rfl
  have mk : ∀ j, j ≠ i → keyAt (Machine.clearMarker i s) j = keyAt s j := fun j n => by
    unfold Machine.clearMarker; rw [keyAt_setKey, if_neg (Ne.symm n)]
  obtain ⟨a, w, l, q, f, c, d, r⟩ := h
  refine ⟨fun x y => by rw [st, st]; exact a x y, w, fun e x n => by rw [st]; exact l e x n, ⟨fun e m => ?_, q.2⟩,
    fun e m => (by rw [show (Machine.clearMarker i s).store = s.store from rfl, hf] at m; cases m), fun x e => ?_, d, r⟩
  · refine (q.1 e m).imp_right fun ⟨x, y, z, v⟩ => ⟨x, y, z, ?_⟩
    rwa [mk x fun o => hq e m (o ▸ y)]
  · by_cases o : x = i
    · subst o
      unfold Machine.clearMarker at e
      rw [keyAt_setKey, if_pos rfl] at e
      cases e
    · rw [mk x o] at e; exact c x e

/-- What stands for a record with no marker: no queued write, and in flight a rewrite at most. -/
theorem keysInvariant.free {s : State} (h : keysInvariant s) {i : Fin 8} (m : (keyAt s i).marker = .none) :
    (∀ e ∈ s.store.queue, e.id ≠ .key i) ∧ ∀ e, s.store.inFlight = some e → e.id = .key i → e.waiters = [] := by
  obtain ⟨_, _, _, q, f, _⟩ := h
  constructor
  · intro e me x
    rcases q.1 e me with y | ⟨j, y, _, z⟩
    · exact (y i).1 x
    · rw [x] at y; cases y; exact z m
  · intro e me x
    rcases f e me with y | ⟨j, y, z⟩
    · exact absurd x (y i).1
    · rw [x] at y; cases y
      exact z.resolve_right fun z => z.2.1 m

/-- A record without a marker changes, its write is offered and its marker set: the invariant stands when the identity
is the one that stood or no record's. -/
theorem keysInvariant.offerKey {s : State} (h : keysInvariant s) (d : s.store.scanDone = true) {i : Fin 8}
    {k : KeyRecord} {w : WriteWaiter} (m : (keyAt s i).marker = .none)
    (hn : ∀ n, names k.stored n → names (keyAt s i).stored n ∨ ∀ j, ¬names (keyAt s j).stored n)
    (hm : k.marker ≠ .none) (hw : awaitedAlone i [w])
    (hc : k.marker = .counterPersist → ∃ f, s.entry.processing = some { stamped := f, stage := .accepted i }) :
    keysInvariant (offer (.key i) (.key k.stored) [w] (Machine.setKey i k s)) := by
  obtain ⟨free, rewrite⟩ := h.free m
  obtain ⟨a, ap, l, q, f, c, _, r⟩ := h
  have none : (s.store.queue.any fun e => decide (e.id = .key i)) = false := by
    rw [List.any_eq_false]; exact fun e me => by simpa using free e me
  have queue : (offer (.key i) (.key k.stored) [w] (Machine.setKey i k s)).store.queue =
      s.store.queue ++ [{ id := .key i, content := .key k.stored, waiters := [w] }] := by
    unfold offer
    exact if_neg (by rw [show (Machine.setKey i k s).store = s.store from rfl, none]; exact Bool.false_ne_true)
  have come : toCome (offer (.key i) (.key k.stored) [w] (Machine.setKey i k s)).store =
      toCome s.store ++ [(.key i, .key k.stored)] := by
    unfold toCome
    rw [queue, offer_store_inFlight, show (Machine.setKey i k s).store = s.store from rfl, ← List.append_assoc,
      List.map_append]
    rfl
  have key : ∀ j, keyAt (offer (.key i) (.key k.stored) [w] (Machine.setKey i k s)) j =
      if i = j then k else keyAt s j := fun j => keyAt_setKey i j k s
  have last : ∀ j n, names (receivedKey (written s.store.flash (toCome s.store ++ [(.key i, .key k.stored)])) j) n →
      names (if i = j then k else keyAt s j).stored n := by
    intro j n x
    unfold written at x
    rw [List.foldl_append, List.foldl_cons, List.foldl_nil] at x
    rcases names_write x with ⟨e, y⟩ | ⟨e, y⟩
    · rwa [if_pos e.symm]
    · rw [if_neg (Ne.symm e)]; exact l d j n y
  have apart : ∀ x y, x ≠ y → ¬sameIdentity (if i = x then k else keyAt s x).stored
      (if i = y then k else keyAt s y).stored := by
    rintro x y o ⟨n, u, v⟩
    by_cases ex : i = x
    · have ey : i ≠ y := fun e => o (ex.symm.trans e)
      rw [if_pos ex] at u
      rw [if_neg ey] at v
      rcases hn n u with z | z
      · exact a i y ey ⟨n, z, v⟩
      · exact z y v
    · rw [if_neg ex] at u
      by_cases ey : i = y
      · rw [if_pos ey] at v
        rcases hn n v with z | z
        · exact a x i (Ne.symm ex) ⟨n, u, z⟩
        · exact z x u
      · rw [if_neg ey] at v
        exact a x y o ⟨n, u, v⟩
  refine ⟨fun x y => by rw [key, key]; exact apart x y, ?_, fun _ j n x => ?_, ⟨fun e me => ?_, fun j => ?_⟩,
    fun e me => ?_, fun j e => ?_, fun e => ?_, fun p mp j e => ?_⟩
  · rw [come]
    refine writesApart_append ap fun x y o ⟨n, u, v⟩ => ?_
    exact apart x y o ⟨n, last x n u, last y n v⟩
  · rw [key]
    rw [come] at x
    exact last j n x
  · rw [queue] at me
    rcases List.mem_append.1 me with me | me
    · refine (q.1 e me).imp_right fun ⟨x, y, z, v⟩ => ⟨x, y, z, ?_⟩
      rw [key, if_neg fun o => free e me (y.trans (congrArg _ o.symm))]
      exact v
    · cases List.mem_singleton.1 me
      exact .inr ⟨i, rfl, hw, by rw [key, if_pos rfl]; exact hm⟩
  · rw [queue, List.filter_append]
    by_cases o : i = j
    · subst o
      rw [List.filter_eq_nil_iff.2 fun e me => by simpa using free e me]
      exact List.length_filter_le _ _
    · rw [List.filter_cons_of_neg (by simpa using o), List.filter_nil, List.append_nil]
      exact q.2 j
  · refine (f e me).imp_right fun ⟨x, y, z⟩ => ?_
    by_cases o : i = x
    · subst o
      exact ⟨i, y, .inl (rewrite e me y)⟩
    · refine ⟨x, y, z.imp_right fun ⟨z, v, u⟩ => ⟨z, by rwa [key, if_neg o], fun b mb => ?_⟩⟩
      rw [queue] at mb
      rcases List.mem_append.1 mb with mb | mb
      · exact u b mb
      · cases List.mem_singleton.1 mb
        exact fun t => o (by cases t; rfl)
  · rw [key] at e
    by_cases o : i = j
    · subst o
      rw [if_pos rfl] at e
      exact hc e
    · rw [if_neg o] at e
      exact c j e
  · rw [offer_store_scanDone, show (Machine.setKey i k s).store = s.store from rfl, d] at e
    cases e
  · exact r p (List.mem_filter.1 mp).1 j e

/-! ### Changes and frames (01, R6, R10 to R14; 02, R21 to R27) -/

theorem reply_keysKept (st : Status) (p : List Byte) (s : State) : KeysKept s (reply st p s) := ⟨rfl, rfl, rfl, rfl, rfl, rfl⟩

theorem finishEvent_keysKept (s : State) : KeysKept s (finishEvent s) := (finishEvent_same s).keys

/-- An identity that no record names. -/
theorem findIdentity_none {s : State} {n : BitVec 32} (h : findIdentity s n = none) (j : Fin 8) :
    ¬names (keyAt s j).stored n := by
  rintro ⟨a, b⟩
  have all : ∀ j : Fin 8, j ∈ allSlots := by decide
  have k := List.find?_eq_none.1 h j (all j)
  exact k (by simp [a, b])

/-- A change that passes its checks gives a record no identity but its own or one that is free. -/
theorem keyCheck_names {s : State} {i : Fin 8} {c : KeyChange} (h : keyCheck s i c = none) {n : BitVec 32}
    (k : names (changed (keyAt s i) c).stored n) :
    names (keyAt s i).stored n ∨ ∀ j, ¬names (keyAt s j).stored n := by
  have slot : keySlotStatus (keyAt s i).stored c = none ∧ identityTaken s c = false := by
    unfold keyCheck at h
    dsimp only at h
    split at h
    · cases h
    · split at h
      · cases h
      · next e =>
        split at h
        · cases h
        · next t => exact ⟨e, by simpa using t⟩
  have live : ∀ {st : Option Status}, (match (keyAt s i).stored.state with
      | .empty => some .notFound
      | .damaged => some (.refused .damaged)
      | .active => none
      | .suspended => none) = (none : Option Status) → usable (keyAt s i).stored = true := by
    intro _ e
    unfold usable
    revert e
    cases (keyAt s i).stored.state <;> simp
  cases c with
  | enroll identity secret role counter p =>
    refine .inr ?_
    have e : identity = n := Option.some.inj k.2
    have t := slot.2
    unfold identityTaken at t
    rw [e] at t
    refine findIdentity_none ?_
    simpa using t
  | profile p => exact .inl k
  | role r => exact .inl k
  | suspend => exact .inl ⟨live (st := none) slot.1, k.2⟩
  | resume => exact .inl ⟨live (st := none) slot.1, k.2⟩
  | revoke => exact absurd k.1 Bool.false_ne_true

theorem keysInvariant.beginChange {s : State} (h : keysInvariant s) (d : s.store.scanDone = true) {i : Fin 8}
    (c : KeyChange) (m : (keyAt s i).marker = .none) : keysInvariant (beginChange i c s) := by
  unfold Machine.beginChange
  split
  · exact h.kept (reply_keysKept _ _ s)
  · next e =>
    split
    · exact h.kept (reply_keysKept _ _ s)
    · exact h.offerKey d (k := { changed (keyAt s i) c with marker := .linkChange }) m
        (fun n x => keyCheck_names e x) (fun x => nomatch x) (.inl rfl) (fun x => nomatch x)

theorem keysInvariant.requestChange {s : State} (h : keysInvariant s) (d : s.store.scanDone = true) (i : Fin 8)
    (c : KeyChange) : keysInvariant (requestChange i c s) := by
  unfold Machine.requestChange
  split
  · next m => exact h.beginChange d c m
  · exact h.kept ⟨rfl, rfl, rfl, rfl, rfl, rfl⟩

theorem keysInvariant.beginWaiting {s : State} (h : keysInvariant s) (d : s.store.scanDone = true) {i : Fin 8}
    (m : (keyAt s i).marker = .none) : keysInvariant (beginWaiting i s) := by
  unfold Machine.beginWaiting
  split
  · exact h
  · split
    · exact keysInvariant.beginChange (s := { s with keys := { s.keys with waiting := none } })
        (h.kept ⟨rfl, rfl, rfl, rfl, rfl, rfl⟩) d _ m
    · exact h

/-- The frame in processing changes, while no counter's write is awaited. -/
theorem keysInvariant.setProcessing {s : State} (h : keysInvariant s)
    (n : ∀ i, (keyAt s i).marker ≠ .counterPersist) (p : Option Processing) : keysInvariant (setProcessing p s) := by
  obtain ⟨a, w, l, q, f, _, d, r⟩ := h
  exact ⟨a, w, l, q, f, fun i e => absurd e (n i), d, r⟩

theorem keysInvariant.reject {s : State} (h : keysInvariant s)
    (n : ∀ i, (keyAt s i).marker ≠ .counterPersist) (i : Fin 8) (f : StampedFrame) (x : RejectReason) :
    keysInvariant (reject i f x s) := by
  refine keysInvariant.setProcessing (keysInvariant.kept (h.setKey (i := i)
    (k := { keyAt s i with
      rejects := min 255 ((keyAt s i).rejects + 1)
      resync := (if x = .resyncPending then some (f.frame.counter, f.arrival) else none).or (keyAt s i).resync })
    rfl rfl) ⟨rfl, rfl, rfl, rfl, rfl, rfl⟩) (fun j => ?_) none
  show (keyAt (Machine.setKey i _ s) j).marker ≠ _
  rw [keyAt_setKey]
  split
  · exact n i
  · exact n j

theorem keysInvariant.acceptCounter {s : State} (h : keysInvariant s) (d : s.store.scanDone = true)
    (n : ∀ i, (keyAt s i).marker ≠ .counterPersist) {i : Fin 8} (m : (keyAt s i).marker ≠ .linkChange)
    (f : StampedFrame) (counter : BitVec 24) (low : Bool) :
    keysInvariant (Machine.setProcessing (some { stamped := f, stage := .accepted i }) (Machine.acceptCounter i counter low s)) := by
  have free : (keyAt s i).marker = .none := by
    have := n i
    cases e : (keyAt s i).marker <;> simp_all
  exact keysInvariant.offerKey (h.setProcessing n (some { stamped := f, stage := .accepted i })) d free
    (k := { keyAt s i with
      stored := { (keyAt s i).stored with counter }, resync := none, rejects := 0, batteryLow := low,
      marker := .counterPersist })
    (fun _ x => .inl x) (fun x => nomatch x) (.inr rfl) (fun _ => ⟨f, rfl⟩)

theorem keysInvariant.judge {s : State} (h : keysInvariant s) (d : s.store.scanDone = true)
    (n : ∀ i, (keyAt s i).marker ≠ .counterPersist) (f : StampedFrame) : keysInvariant (judge f s) := by
  unfold Machine.judge
  split
  · exact h.setProcessing n none
  · split
    · exact h.setProcessing n _
    · next m =>
      split
      · exact h.reject n _ f _
      · exact h.acceptCounter d n m f _ _

/-- With no frame accepted, no counter's write is awaited. -/
theorem keysInvariant.noPersist {s : State} (h : keysInvariant s)
    (n : ∀ f i, s.entry.processing ≠ some { stamped := f, stage := .accepted i }) (i : Fin 8) :
    (keyAt s i).marker ≠ .counterPersist := by
  obtain ⟨_, _, _, _, _, c, _⟩ := h
  intro e
  obtain ⟨f, x⟩ := c i e
  exact n f i x

theorem keysInvariant.frameTake {s : State} (h : keysInvariant s) : keysInvariant (frameTake s) := by
  unfold Machine.frameTake
  split
  · next e =>
    simp only [Bool.and_eq_true, Option.isNone_iff_eq_none] at e
    split
    · exact h
    · next f rest _ =>
      exact keysInvariant.judge (s := { s with entry := { s.entry with rfQueue := rest } }) (h.kept ⟨rfl, rfl, rfl, rfl, rfl, rfl⟩) e.1
        (h.noPersist fun _ _ x => by rw [e.2] at x; cases x) f
  · exact h

/-! ### Writes (09, R160) -/

theorem keysInvariant.writeStart {s : State} (h : keysInvariant s) : keysInvariant (writeStart s) := by
  unfold Machine.writeStart
  split
  · next e =>
    simp only [Bool.and_eq_true, Option.isNone_iff_eq_none] at e
    obtain ⟨a, w, l, q, f, c, _, r⟩ := h
    split
    · next x rest eq =>
      have come : toCome { s.store with queue := rest, inFlight := some x } = toCome s.store := by
        simp [toCome, eq, e.2]
      have mem : ∀ y ∈ rest, y ∈ s.store.queue := fun y m => by rw [eq]; exact List.mem_cons_of_mem _ m
      refine ⟨a, by rw [come]; exact w, fun o i n => by rw [come]; exact l o i n,
        ⟨fun y m => q.1 y (mem y m), fun i => ?_⟩, fun y m => ?_, c, fun o => ?_, r⟩
      · refine Nat.le_trans (List.Sublist.length_le ?_) (q.2 i)
        rw [eq]
        exact (List.sublist_cons_self x rest).filter _
      · cases m
        refine (q.1 x (by rw [eq]; exact List.mem_cons_self)).imp_right fun ⟨i, u, v, z⟩ => ⟨i, u, .inr ⟨v, z, ?_⟩⟩
        intro b m t
        have k := q.2 i
        rw [eq, List.filter_cons_of_pos (by simpa using u)] at k
        have : b ∈ rest.filter fun e => decide (e.id = .key i) := List.mem_filter.2 ⟨m, by simpa using t⟩
        have := List.length_pos_of_mem this
        simp only [List.length_cons] at k
        omega
      · exact absurd e.1 (by rw [show s.store.scanDone = false from o]; decide)
    · next id content rest eqq eqr =>
      have head : ∀ i, id = .key i → content = .key KeyStored.empty := fun i u =>
        r (id, content) (by simp [*]) i u
      have none : toCome s.store = [] := by simp [toCome, *]
      have gone : ∀ i n, names (receivedKey (writeFlash id content s.store.flash) i) n →
          names (receivedKey s.store.flash i) n := by
        intro i n x
        by_cases u : ∃ j, id = .key j
        · obtain ⟨j, u⟩ := u
          rw [head j u, u] at x
          rcases names_write x with ⟨_, y⟩ | ⟨_, y⟩
          · exact absurd y.1 Bool.false_ne_true
          · exact y
        · have : isKey id = false := by
            cases b : isKey id with
            | false => rfl
            | true => exact absurd (isKey_iff.1 b) u
          exact (names_received_of_keys (writeFlash_keys _ this) _ _).1 x
      have come : toCome { s.store with
          repair := rest, inFlight := some { id, content, waiters := [] } } = [(id, content)] := by
        simp [toCome, *]
      rw [none] at w l
      refine ⟨a, ?_, fun o i n x => ?_, ?_, fun y m => ?_, c, fun o => ?_, fun p m => r p (by simp [*])⟩
      · rw [come]; exact ⟨w.now, w.now.of_names gone⟩
      · rw [come] at x
        exact l o i n (gone i n x)
      · exact q
      · cases m
        by_cases u : ∃ j, id = .key j
        · obtain ⟨j, u⟩ := u; exact .inr ⟨j, u, .inl rfl⟩
        · exact .inl fun i => ⟨fun o => u ⟨i, o⟩, List.not_mem_nil, List.not_mem_nil⟩
      · exact absurd e.1 (by rw [show s.store.scanDone = false from o]; decide)
    · exact ⟨a, w, l, q, f, c, fun o => absurd e.1 (by rw [o]; decide), r⟩
  · exact h

theorem persistDefault_keys (n : Nat) (s : State) : KeysKept s (persistDefault n s) := by
  unfold persistDefault
  split
  · next id c e =>
    have k : isKey id = false := by
      unfold defaultRecord at e
      split at e
      · cases e; rfl
      · obtain ⟨t, _, x⟩ := Option.map_eq_some_iff.1 e
        cases x; rfl
    exact ⟨rfl, rfl, rfl, rfl, rfl, keyWrites_offer _ _ k rfl⟩
  · exact ⟨rfl, rfl, rfl, rfl, rfl, rfl⟩

/-- A waiter of another record's write changes nothing of the keys. -/
theorem tellWaiter_keys {w : WriteWaiter} (h : keyWaiter w = false) (s : State) : KeysKept s (tellWaiter s w) := by
  cases w with
  | counterPersist i => cases h
  | linkChange i => cases h
  | marker d => exact .refl s
  | applied => exact reply_keysKept _ _ s
  | replyOk => exact reply_keysKept _ _ s
  | chainsDefault =>
    unfold tellWaiter
    dsimp only
    split
    · exact persistDefault_keys _ s
    · exact .refl s

theorem foldl_tellWaiter_keys (l : List WriteWaiter) (h : l.filter keyWaiter = []) (s : State) :
    KeysKept s (l.foldl tellWaiter s) := by
  induction l generalizing s with
  | nil => exact .refl s
  | cons w l ih =>
    rw [List.filter_eq_nil_iff] at h
    have k : keyWaiter w = false := by simpa using h w List.mem_cons_self
    exact (tellWaiter_keys k s).trans
      (ih (List.filter_eq_nil_iff.2 fun x m => h x (List.mem_cons_of_mem _ m)) _)

/-- The command of an accepted frame carried out: the frame is in processing no more, and nothing else of the keys
changes. -/
theorem carryOut_keys (i : Fin 8) (f : StampedFrame) (s : State) :
    KeysKept (setProcessing none s) (carryOut i f s) := by
  unfold carryOut
  dsimp only
  split
  · exact ⟨rfl, rfl, rfl, rfl, rfl, rfl⟩
  · have k := (fire_same
      { trigger := fobTrigger f.frame.command,
        carried := { origin := driverAperture s, role := (keyAt s i).stored.role, slot := some i,
                     profile := some (keyAt s i).stored.profile },
        holdMark := isHold f.frame.command, request := none } s).keys
    exact ⟨k.recs, rfl, k.flash, k.scanDone, k.inFlight, k.keyWrites⟩

/-- A counter's write is told: its marker, the frame it held, and the change that waited. -/
theorem keysInvariant.tellPersist {s : State} (h : keysInvariant s) (d : s.store.scanDone = true) {i : Fin 8}
    (hq : ∀ e ∈ s.store.queue, e.id ≠ .key i) (hf : s.store.inFlight = none) :
    keysInvariant (tellWaiter s (.counterPersist i)) := by
  have c := h.clearMarker hq hf
  have free : (keyAt (Machine.clearMarker i s) i).marker = .none := by
    unfold Machine.clearMarker; rw [keyAt_setKey_same]
  have step : keysInvariant (counterStored i (Machine.clearMarker i s)) ∧
      (counterStored i (Machine.clearMarker i s)).keys.recs = (Machine.clearMarker i s).keys.recs ∧
      (counterStored i (Machine.clearMarker i s)).store.scanDone = true := by
    unfold counterStored
    split
    · next f j p =>
      split
      · next o =>
        subst o
        have n : ∀ k, (keyAt (Machine.clearMarker j s) k).marker ≠ .counterPersist := by
          intro k e
          obtain ⟨_, _, _, _, _, m, _⟩ := c
          obtain ⟨x, y⟩ := m k e
          rw [p] at y
          cases y
          rw [free] at e
          cases e
        have k := carryOut_keys j f (Machine.clearMarker j s)
        exact ⟨(c.setProcessing n none).kept k, k.recs, k.scanDone.trans d⟩
      · exact ⟨c, rfl, d⟩
    · exact ⟨c, rfl, d⟩
  exact step.1.beginWaiting step.2.2 (by rw [keyAt_of_recs step.2.1]; exact free)

/-- A host change's write is told: its reply, its marker, and the frame that waited at the match. -/
theorem keysInvariant.tellChange {s : State} (h : keysInvariant s) (d : s.store.scanDone = true) {i : Fin 8}
    (hq : ∀ e ∈ s.store.queue, e.id ≠ .key i) (hf : s.store.inFlight = none) :
    keysInvariant (tellWaiter s (.linkChange i)) := by
  have c := (h.clearMarker hq hf).kept (reply_keysKept .ok [] _)
  show keysInvariant (matchResumed i _)
  unfold matchResumed
  split
  · next f j p =>
    split
    · exact c.judge d (c.noPersist fun _ _ x => by rw [p] at x; cases x) f
    · exact c
  · exact c

theorem keysInvariant.writeComplete {s : State} (h : keysInvariant s) : keysInvariant (writeComplete s) := by
  unfold Machine.writeComplete
  split
  · exact h
  · next e fl =>
    refine keysInvariant.kept ?_ (finishEvent_keysKept _)
    obtain ⟨a, w, l, q, f, c, d, r⟩ := h
    have done : s.store.scanDone = true := by
      cases x : s.store.scanDone with
      | true => rfl
      | false => rw [(d x).1] at fl; cases fl
    have come : toCome s.store = (e.id, e.content) :: s.store.queue.map fun e => (e.id, e.content) := by
      simp [toCome, fl]
    rw [come] at w l
    have base : keysInvariant { s with store := { s.store with
        flash := writeFlash e.id e.content s.store.flash, inFlight := none } } :=
      ⟨a, w.2, l, q, (by intro _ m; cases m), c, fun o => ⟨rfl, (d o).2⟩, r⟩
    rcases f e fl with x | ⟨i, x, y⟩
    · exact base.kept (foldl_tellWaiter_keys _ (apartFromKeys_iff.1 x).2 _)
    · rcases y with y | ⟨y | y, _, z⟩
      · rw [y]; exact base
      · rw [y]; exact base.tellChange done z rfl
      · rw [y]; exact base.tellPersist done z rfl

/-! ### The scan and the resets (09, R161, R162; 01, R4) -/

theorem foldl_loadWindow_keys (l : List Door) (s : State) :
    KeysKept s (l.foldl (fun s d => setWindow d (loadWindow (receivedWindow s.store.flash d) (windowAt s d)) s) s) := by
  induction l generalizing s with
  | nil => exact .refl s
  | cons d l ih =>
    rw [List.foldl_cons]
    exact KeysKept.trans (t := setWindow d _ s) ⟨rfl, rfl, rfl, rfl, rfl, rfl⟩ (ih _)

/-- Of the loads, the tables' alone concerns the keys. -/
theorem loadCrash_keys (s : State) :
    KeysKept (loadTables s) (loadCrash (loadSettings (loadWindows (loadTables s)))) :=
  (foldl_loadWindow_keys allDoors (loadTables s)).trans ⟨rfl, rfl, rfl, rfl, rfl, rfl⟩

/-- A blank store's rewrites make every key record EMPTY, and no other rewrite is a key record's. -/
theorem repairs_key {f : Flash} {p : RecordId × Content} (h : p ∈ repairs f) (i : Fin 8) (k : p.1 = .key i) :
    p.2 = .key KeyStored.empty := by
  unfold repairs at h
  simp only [List.mem_append, List.mem_map] at h
  rcases h with ((((h | h) | h) | h) | h) | h
  · split at h
    · obtain ⟨_, _, rfl⟩ := List.mem_map.1 h; rfl
    · cases h
  · split at h
    · obtain ⟨_, _, rfl⟩ := List.mem_map.1 h; cases k
    · cases h
  · obtain ⟨_, _, rfl⟩ := h; cases k
  · split at h
    · cases h
    · cases List.mem_singleton.1 h; cases k
  · obtain ⟨_, _, rfl⟩ := h; cases k
  · split at h
    · cases h
    · cases List.mem_singleton.1 h; cases k

theorem deliverCrash_keys (s : State) : KeysKept s (deliverCrash s) := by
  unfold deliverCrash
  split
  · exact KeysKept.trans (t := { s with latches := { s.latches with crashPending := false } })
      ⟨rfl, rfl, rfl, rfl, rfl, rfl⟩ (fire_same _ _).keys
  · exact .refl s

/-- The tables loaded and the repair list formed. -/
theorem keysInvariant.load {s t : State} (h : keysInvariant s) (d : s.store.scanDone = false)
    (k : KeysKept (loadTables s) t) : keysInvariant (formRepairs t) := by
  have key : ∀ i, keyAt t i = KeyRecord.load (receivedKey t.store.flash i) := fun i => by
    rw [keyAt_of_recs k.recs, k.flash]
    simp [keyAt, loadTables, look]
  obtain ⟨_, w, _, q, _, _, u, _⟩ :=
    h.kept (t := { t with keys := s.keys }) ⟨rfl, k.processing, k.flash, k.scanDone, k.inFlight, k.keyWrites⟩
  obtain ⟨fl, un⟩ := u (k.scanDone.trans d)
  have none : (toCome t.store).filter (fun p => isKey p.1) = [] := by
    rw [toCome_filter, show t.store.inFlight = Option.none from fl]
    refine List.map_eq_nil_iff.2 (List.filter_eq_nil_iff.2 fun e m => ?_)
    simpa using (apartFromKeys_iff.1 (un e m)).1
  have base : keysInvariant { t with store := { t.store with
      repair := (repairs t.store.flash).filter fun p => !t.store.queue.any fun e => e.id = p.1
      damage := damageCounts t.store.flash, scanDone := true } } := by
    refine ⟨fun i j o => ?_, w, fun _ i n x => ?_, ⟨fun e m => .inl (un e m), q.2⟩, fun e m => ?_, fun i e => ?_,
      nofun, fun p m i e => repairs_key (List.mem_filter.1 m).1 i e⟩
    · show ¬sameIdentity (keyAt t i).stored (keyAt t j).stored
      rw [key, key]
      exact w.now i j o
    · show names (keyAt t i).stored n
      rw [key]
      exact (names_received_of_keys (g := written t.store.flash (toCome t.store))
        (by rw [written_keys _ rfl, none]; rfl) i n).1 x
    · rw [show t.store.inFlight = some e from m] at fl
      cases fl
    · replace e : (keyAt t i).marker = .counterPersist := e
      rw [key] at e
      cases e
  unfold formRepairs
  dsimp only
  split
  · exact base.kept ⟨rfl, rfl, rfl, rfl, rfl, rfl⟩
  · exact base

theorem keysInvariant.scanComplete {s : State} (h : keysInvariant s) : keysInvariant (scanComplete s) := by
  unfold Machine.scanComplete
  split
  · exact h
  · next d =>
    exact (h.load (by simpa using d) (loadCrash_keys s)).kept
      ((deliverCrash_keys _).trans (finishEvent_keysKept _))

/-- Right after a reset: every record EMPTY, no write to come. -/
theorem keysInvariant.afresh {t : State} {f : Flash} (a : t.keys.recs = KeyTable.reset.recs)
    (b : t.store = Store.reset f) (c : receivedApart f) : keysInvariant t := by
  have key : ∀ i, keyAt t i = KeyRecord.load KeyStored.empty := fun i => by
    unfold keyAt
    rw [a]
    simp [look, KeyTable.reset]
  refine ⟨fun i j _ ⟨n, x, _⟩ => ?_, ?_, fun e => ?_, ⟨fun e m => ?_, fun i => ?_⟩, fun e m => ?_, fun i e => ?_,
    fun _ => ⟨?_, fun e m => ?_⟩, fun p m => ?_⟩
  · rw [key] at x; exact Bool.false_ne_true x.1
  · rw [b]; exact c
  · rw [b] at e; cases e
  · rw [b] at m; cases m
  · rw [b]; exact Nat.zero_le _
  · rw [b] at m; cases m
  · rw [key] at e; cases e
  · rw [b]; rfl
  · rw [b] at m; cases m
  · rw [b] at m; cases m

/-- What a reset leaves of a write in flight names no identity twice (09, R161). -/
theorem tornStore_apart {s : State} (h : keysInvariant s) : receivedApart (tornStore s) := by
  have w := h.2.1
  unfold tornStore
  split
  · exact w.now
  · next e fl =>
    have come : toCome s.store = (e.id, e.content) :: s.store.queue.map fun e => (e.id, e.content) := by
      simp [toCome, fl]
    rw [come] at w
    split
    · exact w.1
    · exact w.2.now
    · exact w.1.of_names fun _ _ => names_damage

theorem keysInvariant.afterReset {s : State} (h : keysInvariant s) (p : Power) (c : ResetCause) :
    keysInvariant (afterReset p c s) := .afresh rfl rfl (tornStore_apart h)

end Sys2Proof.Machine
end

