-- ==== Sys2Proof/Laws/IdentitiesKept.lean ====
section
/-! SUPPORT. That the host's requests, told as commands or byte by byte, keep the invariant of the identities, and what the
other events leave of the parts that it speaks of. -/

namespace Sys2Proof.Machine

open Sys2Proof

/-- An operation keeps the invariant of the identities. -/
def KeepsIdentities (f : State → State) : Prop := ∀ s, keysInvariant s → keysInvariant (f s)

theorem KeepsIdentities.kept {f : State → State} (h : ∀ s, KeysKept s (f s)) : KeepsIdentities f :=
  fun s k => k.kept (h s)

theorem keysInvariant.reply {st : Status} {p : List Byte} {s : State} (k : keysInvariant s) :
    keysInvariant (reply st p s) := k.kept (reply_keysKept _ _ s)

/-! ### What follows an event -/

/-- A second operation after a first. -/
theorem KeysKept.after {s t u : State} (k : KeysKept t u) (h : KeysKept s t) : KeysKept s u := h.trans k

theorem KeysKept.finishEvent {s t : State} (h : KeysKept s t) : KeysKept s (finishEvent t) :=
  h.trans (finishEvent_keysKept t)

theorem KeysKept.closeGate {s t : State} (h : KeysKept s t) : KeysKept s (closeGate t) :=
  h.trans (closeGate_tables t).keys

theorem KeysKept.testSpeedLock {s t : State} (h : KeysKept s t) : KeysKept s (testSpeedLock t) :=
  h.trans (testSpeedLock_same t).keys

theorem KeysKept.changePower {s t : State} (p : PowerMode) (h : KeysKept s t) : KeysKept s (changePower p t) := by
  refine h.trans ?_
  unfold Machine.changePower
  dsimp only
  split
  · exact .refl t
  · refine KeysKept.closeGate ?_
    split <;> exact ⟨rfl, rfl, rfl, rfl, rfl, rfl⟩

/-! ### What a request's owner does -/

theorem KeepsIdentities.ready {f : State → State}
    (h : ∀ s, s.store.scanDone = true → keysInvariant s → keysInvariant (f s)) : KeepsIdentities (ready f) :=
  fun s k => by
    unfold Machine.ready
    split
    · next d => exact h s d k
    · exact k.reply

theorem keysInvariant.needs {α : Type} {x : Option α} {f : α → State → State} {s : State} (k : keysInvariant s)
    (h : ∀ a, keysInvariant (f a s)) : keysInvariant (needs x f s) := by
  unfold Machine.needs
  split
  · exact h _
  · exact k.reply

theorem reqDeviceStatus_identities : KeepsIdentities reqDeviceStatus := fun _ k => k.reply

theorem reqDeviceStatusClear_identities : KeepsIdentities reqDeviceStatusClear :=
  .ready fun _ _ k => k.kept ⟨rfl, rfl, rfl, rfl, rfl, rfl⟩

theorem reqReset_identities : KeepsIdentities reqReset := .ready fun _ _ k => k.kept ⟨rfl, rfl, rfl, rfl, rfl, rfl⟩

theorem enterParked_keysKept (s : State) : KeysKept s (enterParked s) := by
  unfold enterParked
  exact .closeGate ⟨rfl, rfl, rfl, rfl, rfl, rfl⟩

theorem reqPark_identities : KeepsIdentities reqPark := .ready fun s _ k => by
  split
  · exact (k.kept (enterParked_keysKept s)).reply
  · exact k.reply

theorem takeVehicleState_keysKept (v : Nat) (p : PowerMode) (s : State) : KeysKept s (takeVehicleState v p s) := by
  unfold takeVehicleState
  dsimp only
  refine .testSpeedLock ?_
  split
  · exact (armSpeedLock_tables _).keys.after (.changePower p ⟨rfl, rfl, rfl, rfl, rfl, rfl⟩)
  · exact .changePower p ⟨rfl, rfl, rfl, rfl, rfl, rfl⟩

theorem reqVehicleState_identities (v : BitVec 16) (p : Byte) : KeepsIdentities (reqVehicleState v p) :=
  .ready fun s _ k => k.needs fun p => (k.kept (takeVehicleState_keysKept v.toNat p s).finishEvent).reply

theorem reqAttentionRead_identities : KeepsIdentities reqAttentionRead :=
  .ready fun _ _ k => k.kept ⟨rfl, rfl, rfl, rfl, rfl, rfl⟩

theorem reqAttentionMask_identities (m : BitVec 16) : KeepsIdentities (reqAttentionMask m) :=
  .ready fun _ _ k => k.kept ⟨rfl, rfl, rfl, rfl, rfl, rfl⟩

theorem reqSettingsRead_identities : KeepsIdentities reqSettingsRead := .ready fun _ _ k => k.reply

theorem changeSettings_keysKept (x : Settings) (s : State) : KeysKept s (changeSettings x s) := by
  have last : ∀ t, KeysKept s t → KeysKept s (offer .settings (.settings x) [.replyOk] t) := fun t h =>
    h.trans ⟨rfl, rfl, rfl, rfl, rfl, keyWrites_offer_settings _ _⟩
  have first : KeysKept s (if x.driverFr = s.link.settings.driverFr then s else releaseSwitch s .passenger) := by
    split
    · exact .refl s
    · exact (releaseSwitch_tables s .passenger).keys
  unfold changeSettings
  dsimp only
  refine last _ (.finishEvent ?_)
  split
  · exact first.trans ⟨rfl, rfl, rfl, rfl, rfl, rfl⟩
  · exact .testSpeedLock (first.trans ⟨rfl, rfl, rfl, rfl, rfl, rfl⟩)

theorem reqSettingsWrite_identities (d a v w r p n : Byte) : KeepsIdentities (reqSettingsWrite d a v w r p n) :=
  .ready fun s _ k => k.needs fun _ => k.needs fun _ => by
    unfold takeSettings
    split
    · exact k.reply
    · exact k.kept (changeSettings_keysKept _ s)

theorem reqKeyLookup_identities (i : Byte) : KeepsIdentities (reqKeyLookup i) :=
  .ready fun _ _ k => k.needs fun _ => k.reply

theorem reqKeyFind_identities (n : BitVec 32) : KeepsIdentities (reqKeyFind n) := .ready fun s _ k => by
  split <;> exact k.reply

theorem reqKeyEnroll_identities (i : Byte) (n : BitVec 32) (x : BitVec 128) (r : Byte) (c : BitVec 24) (u p w : Byte) :
    KeepsIdentities (reqKeyEnroll i n x r c u p w) :=
  .ready fun _ d k => k.needs fun _ => k.needs fun _ => k.needs fun _ => k.requestChange d _ _

theorem reqKeyProfile_identities (i u p w : Byte) : KeepsIdentities (reqKeyProfile i u p w) :=
  .ready fun _ d k => k.needs fun _ => k.needs fun _ => k.requestChange d _ _

theorem reqKeyRole_identities (i r : Byte) : KeepsIdentities (reqKeyRole i r) :=
  .ready fun _ d k => k.needs fun _ => k.needs fun _ => k.requestChange d _ _

theorem reqKeySuspend_identities (i : Byte) : KeepsIdentities (reqKeySuspend i) :=
  .ready fun _ d k => k.needs fun _ => k.requestChange d _ _

theorem reqKeyResume_identities (i : Byte) : KeepsIdentities (reqKeyResume i) :=
  .ready fun _ d k => k.needs fun _ => k.requestChange d _ _

theorem reqKeyRevoke_identities (i : Byte) : KeepsIdentities (reqKeyRevoke i) :=
  .ready fun _ d k => k.needs fun _ => k.requestChange d _ _

theorem reqEnrollOpen_identities : KeepsIdentities reqEnrollOpen :=
  .ready fun s _ k => k.kept (requestSearch_same _ _ _ s).keys

theorem reqApertureRead_identities (a : Byte) : KeepsIdentities (reqApertureRead a) :=
  .ready fun _ _ k => k.needs fun _ => k.reply

theorem reqLatch_identities (x : HeldTarget) (a : Byte) : KeepsIdentities (reqLatch x a) :=
  .ready fun s _ k => k.needs fun a => by
    unfold takeHostLatch
    split
    · exact k.reply
    · have q := k.kept (KeysKept.finishEvent (requestLatch_same a x .link [] s).keys)
      dsimp only
      unfold replyLatch
      split <;> exact q.reply

theorem takeHostMove_identities (d : Door) (m : Movement) : KeepsIdentities (takeHostMove d m) := fun s k => by
  have q := k.kept (KeysKept.finishEvent (requestMovement_same d m s).keys)
  unfold takeHostMove replyWindow
  dsimp only
  split <;> exact q.reply

theorem keysInvariant.onWindow {a : Aperture} {f : Door → State → State} {s : State} (k : keysInvariant s)
    (h : ∀ d, keysInvariant (f d s)) : keysInvariant (onWindow a f s) := by
  unfold Machine.onWindow
  split
  · exact k.reply
  · exact h _

theorem reqWindowMove_identities (x : Direction) (a : Byte) : KeepsIdentities (reqWindowMove x a) :=
  .ready fun s _ k => k.needs fun _ => k.onWindow fun d => takeHostMove_identities d _ s k

theorem reqWindowTo_identities (a p : Byte) : KeepsIdentities (reqWindowTo a p) :=
  .ready fun s _ k => k.needs fun _ => k.needs fun _ => k.onWindow fun d => by
    unfold takeWindowTo
    dsimp only
    split
    · exact takeHostMove_identities d _ s k
    · unfold replyWindow
      split <;> exact k.reply

theorem reqWindowStop_identities (a : Byte) : KeepsIdentities (reqWindowStop a) :=
  .ready fun s _ k => k.needs fun _ => k.onWindow fun d => by
    unfold takeWindowStop
    dsimp only
    split
    · exact k.reply
    · split
      · exact (k.kept (KeysKept.finishEvent
          ((stopMovement_same d _ s).keys.trans (removeFollowOn_same d _ _).keys))).reply
      · exact k.reply

theorem reqWindowSetup_identities (d l a : Byte) : KeepsIdentities (reqWindowSetup d l a) :=
  .ready fun s _ k => k.needs fun d => k.needs fun a => by
    unfold takeWindowSetup
    dsimp only
    split
    · split
      · exact k.reply
      · exact k.kept (KeysKept.trans (t := setWindow d _ s) ⟨rfl, rfl, rfl, rfl, rfl, rfl⟩
          (writeWindow_applied_same d _).keys)
    · exact k.kept ⟨rfl, rfl, rfl, rfl, rfl, rfl⟩

theorem reqWindowRelearn_identities (d : Byte) : KeepsIdentities (reqWindowRelearn d) :=
  .ready fun s _ k => k.needs fun d => by
    unfold takeWindowRelearn
    dsimp only
    split
    · exact k.kept (KeysKept.trans (t := setWindow d _ s) ⟨rfl, rfl, rfl, rfl, rfl, rfl⟩
        (writeWindow_applied_same d _).keys)
    · exact k.kept ⟨rfl, rfl, rfl, rfl, rfl, rfl⟩

theorem reqStepRead_identities (i : Byte) : KeepsIdentities (reqStepRead i) :=
  .ready fun _ _ k => k.needs fun _ => k.reply

theorem reqStepWrite_identities (i a x g r f n : Byte) : KeepsIdentities (reqStepWrite i a x g r f n) :=
  .ready fun _ _ k => k.needs fun _ => k.needs fun _ => k.needs fun _ => k.needs fun _ => k.needs fun _ =>
    k.needs fun _ => k.needs fun _ => k.kept ⟨rfl, rfl, rfl, rfl, rfl, keyWrites_offer_step _ _ _⟩

theorem reqTriggerRead_identities (i : Byte) : KeepsIdentities (reqTriggerRead i) :=
  .ready fun _ _ k => k.needs fun _ => k.reply

theorem reqTriggerWrite_identities (i st p g h : Byte) (c : BitVec 16) :
    KeepsIdentities (reqTriggerWrite i st p g h c) :=
  .ready fun _ _ k => k.needs fun _ => k.needs fun _ => k.needs fun _ => k.needs fun _ => k.needs fun _ =>
    k.kept ⟨rfl, rfl, rfl, rfl, rfl, keyWrites_offer_trigger _ _ _⟩

theorem reqChainsDefault_identities : KeepsIdentities reqChainsDefault :=
  .ready fun s _ k => k.kept (KeysKept.trans (t := loadDefaults s) ⟨rfl, rfl, rfl, rfl, rfl, rfl⟩
    (persistDefault_keys _ _))

theorem reqTriggerFire_identities (st p o : Byte) : KeepsIdentities (reqTriggerFire st p o) :=
  .ready fun s _ k => k.needs fun _ => k.needs fun _ => by
    unfold takeTriggerFire
    split
    · exact k.reply
    · exact (k.kept (KeysKept.finishEvent (fire_same _ s).keys)).reply

theorem reqRunStatus_identities : KeepsIdentities reqRunStatus := .ready fun _ _ k => k.reply

theorem keysInvariant.resolve {t : Trigger} {act : Run → State → State} {s : State} (k : keysInvariant s)
    (h : ∀ r, KeysKept s (act r s)) : keysInvariant (resolve t act s) := by
  unfold Machine.resolve
  split
  · exact k.reply
  · split
    · exact (k.kept (h _).finishEvent).reply
    · exact k.reply

theorem reqRunRetry_identities (t : Byte) : KeepsIdentities (reqRunRetry t) :=
  .ready fun s _ k => k.needs fun t => k.resolve fun r => by
    unfold retryRun
    exact KeysKept.trans (t := setRun t _ s) ⟨rfl, rfl, rfl, rfl, rfl, rfl⟩ (preempt_same t _).keys

theorem reqRunAbandon_identities (t : Byte) : KeepsIdentities (reqRunAbandon t) :=
  .ready fun s _ k => k.needs fun t => k.resolve fun _ => (retire_same t _ s).keys

theorem reqClearCrash_identities : KeepsIdentities reqClearCrash := .ready fun s _ k => by
  unfold takeClearCrash
  split
  · exact k.reply
  · split
    · exact k.reply
    · exact k.kept ⟨rfl, rfl, rfl, rfl, rfl, keyWrites_offer_crash_reply _ _⟩

/-! ### Requests by their frames and their bytes -/

theorem apertureCommand_identities (p : List Byte) : KeepsIdentities (apertureCommand p) := by
  unfold apertureCommand
  dsimp only
  split
  · exact reqLatch_identities _ _
  · exact reqLatch_identities _ _
  · exact reqLatch_identities _ _
  · exact reqLatch_identities _ _
  · exact reqLatch_identities _ _
  · exact reqWindowMove_identities _ _
  · exact reqWindowMove_identities _ _
  · exact reqWindowTo_identities _ _
  · exact reqWindowStop_identities _
  · exact reqLatch_identities _ _
  · exact .ready fun _ _ k => k.reply

theorem runResolve_identities (p : List Byte) : KeepsIdentities (runResolve p) := by
  unfold runResolve
  split
  · exact reqRunRetry_identities _
  · exact reqRunAbandon_identities _
  · exact .ready fun _ _ k => k.reply

theorem dispatch_identities (code : Nat) (p : List Byte) : KeepsIdentities (dispatch code p) := by
  unfold dispatch
  dsimp only
  split
  · exact reqDeviceStatus_identities
  · exact reqDeviceStatusClear_identities
  · exact reqReset_identities
  · exact reqPark_identities
  · exact reqVehicleState_identities _ _
  · exact reqAttentionRead_identities
  · exact reqAttentionMask_identities _
  · exact reqSettingsRead_identities
  · exact reqSettingsWrite_identities _ _ _ _ _ _ _
  · exact reqKeyLookup_identities _
  · exact reqKeyFind_identities _
  · exact reqKeyEnroll_identities _ _ _ _ _ _ _ _
  · exact reqKeyProfile_identities _ _ _ _
  · exact reqKeyRole_identities _ _
  · exact reqKeySuspend_identities _
  · exact reqKeyResume_identities _
  · exact reqKeyRevoke_identities _
  · exact reqEnrollOpen_identities
  · exact reqApertureRead_identities _
  · exact apertureCommand_identities _
  · exact reqWindowSetup_identities _ _ _
  · exact reqWindowRelearn_identities _
  · exact reqStepRead_identities _
  · exact reqStepWrite_identities _ _ _ _ _ _ _
  · exact reqTriggerRead_identities _
  · exact reqTriggerWrite_identities _ _ _ _ _ _
  · exact reqChainsDefault_identities
  · exact reqTriggerFire_identities _ _ _
  · exact reqRunStatus_identities
  · exact runResolve_identities _
  · exact reqClearCrash_identities
  · exact fun _ k => k.reply

theorem judgeFrame_identities (bs : List Byte) : KeepsIdentities (judgeFrame bs) := by
  unfold judgeFrame
  split
  · exact fun _ k => k.reply
  · dsimp only
    split
    · exact fun _ k => k.reply
    · split
      · exact dispatch_identities _ _
      · exact fun _ k => k.reply

theorem requestFrame_identities (n : Nat) {f : State → State} (h : KeepsIdentities f) :
    KeepsIdentities (requestFrame n f) := fun s k => by
  unfold requestFrame
  split
  · exact (k.kept (heard_tables n s).keys).kept ⟨rfl, rfl, rfl, rfl, rfl, rfl⟩
  · exact h _ (k.kept (taken_tables n s).keys)

theorem readTransaction_identities (n : Nat) : KeepsIdentities (readTransaction n) := fun s k => by
  unfold readTransaction
  split
  · dsimp only
    split
    · unfold linkReset
      exact keysInvariant.afterReset (s := { s with link := { s.link with state := .idle, dataOut := _ } })
        (k.kept ⟨rfl, rfl, rfl, rfl, rfl, rfl⟩) _ _
    · exact k.kept ⟨rfl, rfl, rfl, rfl, rfl, rfl⟩
  · exact k.kept ((wake_tables .link s).keys.trans ⟨rfl, rfl, rfl, rfl, rfl, rfl⟩)

theorem requestTransaction_identities (bs : List Byte) : KeepsIdentities (requestTransaction bs) := fun s k => by
  have a : KeysKept s (driveHigh bs.length (wake .link s)) :=
    (wake_tables .link s).keys.trans ⟨rfl, rfl, rfl, rfl, rfl, rfl⟩
  unfold requestTransaction
  dsimp only
  have b : KeysKept s (if intact bs = true then validFrame (driveHigh bs.length (wake .link s))
      else driveHigh bs.length (wake .link s)) := by
    split
    · exact a.trans (validFrame_tables _).keys
    · exact a
  split
  · exact k.kept (b.trans ⟨rfl, rfl, rfl, rfl, rfl, rfl⟩)
  · exact judgeFrame_identities bs _ (k.kept (b.trans ⟨rfl, rfl, rfl, rfl, rfl, rfl⟩))

theorem transaction_identities (bs : List Byte) : KeepsIdentities (transaction bs) := by
  cases bs with
  | nil => exact requestTransaction_identities []
  | cons b rest =>
    intro s k
    unfold transaction
    dsimp only
    split
    · exact readTransaction_identities _ s k
    · exact requestTransaction_identities _ s k

/-! ### Meanings -/

theorem event_identities {f : State → State} (h : KeepsIdentities f) {s t : State} (k : keysInvariant s)
    (e : event f s = .next t) : keysInvariant t := by
  unfold event at e
  cases e
  split
  · exact h s k
  · exact k

theorem hostRequest_identities {n : Nat} {f : State → State} (h : KeepsIdentities f) {s t : State}
    (k : keysInvariant s) (e : hostRequest n f s = .next t) : keysInvariant t :=
  event_identities (requestFrame_identities n h) k e

/-- An operation and the end of its event. -/
theorem KeepsIdentities.finished {f : State → State} (h : ∀ s, KeysKept s (f s)) :
    KeepsIdentities fun s => finishEvent (f s) := .kept fun s => (h s).finishEvent

/-! ### Events that leave the keys alone -/

theorem crashLatches_keysKept (s : State) : KeysKept s (crashLatches s) := by
  have last : ∀ t, KeysKept s t → KeysKept s (raise .crash (allApertures.foldl crashAperture t)) := fun t h =>
    (h.trans (foldl_crashAperture_same _ t).keys).trans ⟨rfl, rfl, rfl, rfl, rfl, rfl⟩
  unfold crashLatches
  dsimp only
  apply last
  split <;> split
  all_goals first
    | exact ⟨rfl, rfl, rfl, rfl, rfl, rfl⟩
    | exact ⟨rfl, rfl, rfl, rfl, rfl, keyWrites_offer_crash _ _⟩

theorem crashEvent_keysKept (s : State) : KeysKept s (crashEvent s) := by
  have k : KeysKept s (allDoors.foldl crashWindow (crashLatches s)) :=
    (crashLatches_keysKept s).trans (foldl_crashWindow_same _ _).keys
  unfold crashEvent
  dsimp only
  split
  · exact k.trans (fire_same _ _).keys
  · refine k.trans ?_
    exact ⟨rfl, rfl, rfl, rfl, rfl, rfl⟩

theorem crashExpiry_keysKept (s : State) : KeysKept s (crashExpiry s) := by
  unfold crashExpiry
  dsimp only
  split
  · exact (crashEvent_keysKept _).after ((wake_tables _ _).keys.after ⟨rfl, rfl, rfl, rfl, rfl, rfl⟩)
  · exact ⟨rfl, rfl, rfl, rfl, rfl, rfl⟩
  · exact .refl s
  · exact .refl s

theorem qualify_keysKept (i : Input) (s : State) : KeysKept s (qualify i s) := by
  by_cases h : i = .crashLine
  · subst h
    exact crashExpiry_keysKept s
  · exact (qualify_tables h s).keys

theorem searchComplete_keysKept (s : State) : KeysKept s (searchComplete s) := by
  unfold searchComplete
  split
  · exact .refl s
  · split
    · dsimp only
      split
      · exact .finishEvent ((passiveResult_tables _ _ _ _).keys.after ⟨rfl, rfl, rfl, rfl, rfl, rfl⟩)
      · split
        · exact .finishEvent ((foldl_insideResult_tables _ _ _).keys.after ⟨rfl, rfl, rfl, rfl, rfl, rfl⟩)
        · unfold enrollResult
          split <;> exact ⟨rfl, rfl, rfl, rfl, rfl, rfl⟩
    · exact .refl s

theorem rfArrival_keysKept (bs : List Byte) (s : State) : KeysKept s (rfArrival bs s) := by
  have w := (wake_tables .rf s).keys
  unfold rfArrival
  dsimp only
  split
  · exact w
  · unfold offerFrame
    split
    · exact w.trans ⟨rfl, rfl, rfl, rfl, rfl, rfl⟩
    · exact w
  · unfold takeResponse
    split
    · exact w
    · split
      · exact w.trans ⟨rfl, rfl, rfl, rfl, rfl, rfl⟩
      · exact w

end Sys2Proof.Machine
end

