-- ==== Sys2Proof/Laws/Runs.lean ====
section
/-! SUPPORT. What retiring one run, or the runs of a cancel set, does to the Chain Engine's records; which deferred
request is taken; how a written copy is judged. -/

namespace Sys2Proof.Machine

open Sys2Proof

/-! ### The engine's tables read back -/

theorem look_put_trigger {α : Type} (v : Vector α 14) (t u : Trigger) (x : α) :
    look (put v (triggerIndex t) x) (triggerIndex u) = if t = u then x else look v (triggerIndex u) := by
  rw [look_put]
  by_cases e : t = u
  · subst e; simp
  · rw [if_neg e, if_neg fun h => e (triggerIndex_inj h)]

theorem continueAt_setContinue (t u : Trigger) (c : Option ContinuePoint) (s : State) :
    continueAt (setContinue t c s) u = if t = u then c else continueAt s u := look_put_trigger _ t u c

theorem refireAt_setRefire (t u : Trigger) (c : Option Carried) (s : State) :
    refireAt (setRefire t c s) u = if t = u then c else refireAt s u := look_put_trigger _ t u c

/-! ### A window's stop leaves the engine alone -/

@[simp] theorem tellMove_engine (d : Door) (m : Movement) (o : OpOutcome) (s : State) :
    (tellMove d m o s).engine = s.engine := tell_engine _ _ _ _ _

@[simp] theorem tellMotion_engine (d : Door) (o : OpOutcome) (s : State) : (tellMotion d o s).engine = s.engine := by
  unfold tellMotion; split <;> simp

@[simp] theorem writeWindow_engine (d : Door) (w : List WriteWaiter) (s : State) :
    (writeWindow d w s).engine = s.engine := rfl

@[simp] theorem toIdle_engine (d : Door) (s : State) : (toIdle d s).engine = s.engine := by simp [toIdle]

@[simp] theorem startMotor_engine (d : Door) (m : Movement) (s : State) : (startMotor d m s).engine = s.engine := by
  unfold startMotor
  dsimp only
  split
  · simp
  · split <;> simp

@[simp] theorem comeToRest_engine (d : Door) (s : State) : (comeToRest d s).engine = s.engine := by
  unfold comeToRest
  dsimp only
  split
  · simp
  · split <;> simp

@[simp] theorem stopMovement_engine (d : Door) (o : Option OpOutcome) (s : State) :
    (stopMovement d o s).engine = s.engine := by
  unfold stopMovement
  dsimp only
  split <;> first
    | rfl
    | (split <;> simp)

@[simp] theorem removeFollowOn_engine (d : Door) (o : Option OpOutcome) (s : State) :
    (removeFollowOn d o s).engine = s.engine := by
  unfold removeFollowOn
  dsimp only
  split
  · rfl
  · split <;> simp

@[simp] theorem retireWindow_engine (t : Trigger) (s : State) (d : Door) :
    (retireWindow t s d).engine = s.engine := by
  unfold retireWindow
  dsimp only
  split <;> split <;> simp

@[simp] theorem foldl_retireWindow_engine (t : Trigger) (l : List Door) (s : State) :
    (l.foldl (retireWindow t) s).engine = s.engine := by
  induction l generalizing s with
  | nil => rfl
  | cons d l ih => rw [List.foldl_cons, ih, retireWindow_engine]

/-! ### Retiring a run (08, R154) -/

/-- A trigger without a run: nothing is retired. -/
theorem retire_none {t : Trigger} {s : State} (o : RunOutcome) (h : runAt s t = none) : retire t o s = s := by
  simp only [retire, h]

/-- A run retired: its record and its refire record go, the latest outcome record is its own, and the engine's other
records stay. -/
theorem retire_engine {t : Trigger} {s : State} {r : Run} (o : RunOutcome) (h : runAt s t = some r) :
    (retire t o s).engine = { s.engine with
      runs := put s.engine.runs (triggerIndex t) none
      refires := put s.engine.refires (triggerIndex t) none
      latest := some { trigger := t, outcome := o, slot := r.slot,
                       lastStep := if r.steps = 0 then none else some r.stepIndex } } := by
  simp only [retire, h, removeRun, raise_engine, setRun, setRefire, dropWaiter, foldl_retireWindow_engine]

theorem removeRun_raises (t : Trigger) (r : Run) (o : RunOutcome) (l : Option (Fin 64)) (s : State) :
    raised .chainDone (removeRun t r o l s) = true := raised_raise .chainDone (setRun t none s)

theorem retire_raises {t : Trigger} {s : State} {r : Run} (o : RunOutcome) (h : runAt s t = some r) :
    raised .chainDone (retire t o s) = true := by
  simp only [retire, h]
  exact removeRun_raises _ _ _ _ _

@[simp] theorem runAt_retire (t u : Trigger) (o : RunOutcome) (s : State) :
    runAt (retire t o s) u = if t = u then none else runAt s u := by
  cases h : runAt s t with
  | none =>
    rw [retire_none o h]
    split
    · next e => rw [← e, h]
    · rfl
  | some r =>
    simp only [runAt, retire_engine o h]
    exact look_put_trigger _ t u none

@[simp] theorem continueAt_retire (t u : Trigger) (o : RunOutcome) (s : State) :
    continueAt (retire t o s) u = continueAt s u := by
  cases h : runAt s t with
  | none => rw [retire_none o h]
  | some r => simp only [continueAt, retire_engine o h]

/-! ### One trigger of a cancel set (07, R131) -/

@[simp] theorem runAt_cancelTrigger (t u : Trigger) (s : State) :
    runAt (cancelTrigger s t) u = if t = u then none else runAt s u := runAt_retire t u .cancelled s

@[simp] theorem continueAt_cancelTrigger (t u : Trigger) (s : State) :
    continueAt (cancelTrigger s t) u = if t = u then none else continueAt s u := by
  rw [cancelTrigger, continueAt_setContinue, continueAt_retire]

theorem refireAt_cancelTrigger (t u : Trigger) (s : State) :
    refireAt (cancelTrigger s t) u = if t = u ∧ (runAt s t).isSome then none else refireAt s u := by
  cases h : runAt s t with
  | none => simp [cancelTrigger, retire_none _ h, refireAt, setContinue]
  | some r =>
    have e : refireAt (cancelTrigger s t) u = look (put s.engine.refires (triggerIndex t) none) (triggerIndex u) := by
      simp only [refireAt, cancelTrigger, setContinue, retire_engine _ h]
    rw [e, look_put_trigger]
    simp [refireAt]

theorem latest_cancelTrigger_none {t : Trigger} {s : State} (h : runAt s t = none) :
    (cancelTrigger s t).engine.latest = s.engine.latest := by
  simp [cancelTrigger, retire_none _ h]

theorem latest_cancelTrigger_some {t : Trigger} {s : State} {r : Run} (h : runAt s t = some r) :
    (cancelTrigger s t).engine.latest = some { trigger := t, outcome := .cancelled, slot := r.slot,
                                               lastStep := if r.steps = 0 then none else some r.stepIndex } := by
  simp [cancelTrigger, retire_engine _ h]

@[simp] theorem cancelTrigger_nextSerial (t : Trigger) (s : State) :
    (cancelTrigger s t).engine.nextSerial = s.engine.nextSerial := by
  cases h : runAt s t with
  | none => simp [cancelTrigger, retire_none _ h]
  | some r => simp [cancelTrigger, retire_engine _ h]

@[simp] theorem cancelTrigger_relock (t : Trigger) (s : State) :
    (cancelTrigger s t).engine.relock = s.engine.relock := by
  cases h : runAt s t with
  | none => simp [cancelTrigger, retire_none _ h]
  | some r => simp [cancelTrigger, retire_engine _ h]

/-! ### A list of triggers cancelled one after the other -/

theorem runAt_cancelAll (l : List Trigger) (u : Trigger) (s : State) :
    runAt (l.foldl cancelTrigger s) u = if u ∈ l then none else runAt s u := by
  induction l generalizing s with
  | nil => simp
  | cons t l ih =>
    rw [List.foldl_cons, ih, runAt_cancelTrigger]
    by_cases e : t = u <;> by_cases m : u ∈ l <;> simp [e, m, Ne.symm]

theorem continueAt_cancelAll (l : List Trigger) (u : Trigger) (s : State) :
    continueAt (l.foldl cancelTrigger s) u = if u ∈ l then none else continueAt s u := by
  induction l generalizing s with
  | nil => simp
  | cons t l ih =>
    rw [List.foldl_cons, ih, continueAt_cancelTrigger]
    by_cases m : u ∈ l
    · simp [m]
    · by_cases e : t = u
      · simp [e]
      · simp [e, m, Ne.symm e]

/-- Cancelling triggers of which none has a run leaves the latest outcome record. -/
theorem latest_cancelAll_none {l : List Trigger} {s : State} (h : ∀ t ∈ l, runAt s t = none) :
    (l.foldl cancelTrigger s).engine.latest = s.engine.latest := by
  induction l generalizing s with
  | nil => rfl
  | cons t l ih =>
    rw [List.foldl_cons, ih, latest_cancelTrigger_none (h t (.head _))]
    intro u m
    rw [runAt_cancelTrigger, h u (.tail _ m)]
    split <;> rfl

/-- Of several runs cancelled in turn, the last one's outcome stays in the latest outcome record. -/
theorem latest_cancelAll {pre post : List Trigger} {t : Trigger} {s : State} {r : Run} (h : runAt s t = some r)
    (fresh : t ∉ pre) (rest : ∀ u ∈ post, runAt s u = none) :
    ((pre ++ t :: post).foldl cancelTrigger s).engine.latest =
      some { trigger := t, outcome := .cancelled, slot := r.slot,
             lastStep := if r.steps = 0 then none else some r.stepIndex } := by
  have k : runAt (pre.foldl cancelTrigger s) t = some r := by rw [runAt_cancelAll, if_neg fresh, h]
  rw [List.foldl_append, List.foldl_cons, latest_cancelAll_none, latest_cancelTrigger_some k]
  intro u m
  rw [runAt_cancelTrigger, runAt_cancelAll, rest u m]
  split
  · rfl
  · split <;> rfl

/-! ### The deferred requests (04, R67) -/

theorem firstTakeable_none {s : State} {l : List Deferred} (h : ∀ x ∈ l, mayTake s x = false) :
    firstTakeable s l = none := by
  induction l with
  | nil => rfl
  | cons x l ih => simp [firstTakeable, h x (.head _), ih fun y m => h y (.tail _ m)]

theorem firstTakeable_some {s : State} {pre post : List Deferred} {x : Deferred}
    (h : ∀ y ∈ pre, mayTake s y = false) (k : mayTake s x = true) :
    firstTakeable s (pre ++ x :: post) = some (x, pre ++ post) := by
  induction pre with
  | nil => simp [firstTakeable, k]
  | cons y l ih => simp [firstTakeable, h y (.head _), ih fun z m => h z (.tail _ m)]

/-! ### The stored copies (09, R158) -/

/-- A content in its ranges, written with its check, is judged sound. -/
theorem judgeCopy_written {α : Type} (content : α → Content) (inRange : α → Bool) (x : α) (h : inRange x = true) :
    judgeCopy content inRange (.record x (checkOf (content x))) = .sound x := if_pos ⟨rfl, h⟩

end Sys2Proof.Machine
end

