-- ==== Sys2Proof/Laws/Settling.lean ====
section
/-! SUPPORT. The moves of the ACTIVE run (07, R141): what they leave of every run, that a firing with no run ACTIVE leaves
none ACTIVE, and that one move leaves the run fewer moves, so that an event's end is reached. -/

namespace Sys2Proof.Machine

open Sys2Proof

/-! ### What the engine's own moves leave of every run -/

/-- No run comes or goes, and each keeps its state, its steps and its captured step. -/
def SameRuns (s t : State) : Prop :=
  ∀ u, (runAt t u).map (fun r => (r.state, r.steps, r.step)) = (runAt s u).map fun r => (r.state, r.steps, r.step)

theorem SameRuns.refl (s : State) : SameRuns s s := fun _ => rfl

theorem SameRuns.trans {s t u : State} (h : SameRuns s t) (k : SameRuns t u) : SameRuns s u :=
  fun v => (k v).trans (h v)

theorem SameRuns.of_runs {s t : State} (h : t.engine.runs = s.engine.runs) : SameRuns s t :=
  fun u => by simp only [runAt, h]

theorem SameRuns.of_engine {s t : State} (h : t.engine = s.engine) : SameRuns s t := .of_runs (by rw [h])

theorem SameRuns.foldl {α : Type} {f : State → α → State} (h : ∀ s x, SameRuns s (f s x)) (l : List α) (s : State) :
    SameRuns s (l.foldl f s) := by
  induction l generalizing s with
  | nil => exact .refl s
  | cons x l ih => exact (h s x).trans (ih _)

theorem SameRuns.setRun {t : Trigger} {r x : Run} {s : State} (h : runAt s t = some r)
    (k : (x.state, x.steps, x.step) = (r.state, r.steps, r.step)) : SameRuns s (setRun t (some x) s) := by
  intro u
  rw [runAt_setRun]
  split
  · next e => rw [← e, h]; exact congrArg some k
  · rfl

theorem recordNotice_sameRuns (s : State) (n : Notice) : SameRuns s (recordNotice s n) := by
  unfold recordNotice
  split
  · exact .refl s
  · next r h =>
    split
    · exact .setRun h rfl
    · exact .refl s

theorem deliver_sameRuns (s : State) : SameRuns s (deliver s) :=
  SameRuns.trans (t := { s with mail := [] }) (.of_engine rfl) (.foldl recordNotice_sameRuns _ _)

theorem engineOutcome_sameRuns (t : Trigger) (a : Aperture) (o : OpOutcome) (s : State) :
    SameRuns s (engineOutcome t a o s) := by
  unfold engineOutcome
  split
  · next r h =>
    split
    · exact .setRun h rfl
    · exact .refl s
  · exact .refl s

theorem skipMet_sameRuns (t : Trigger) (st : Step) (s : State) : SameRuns s (skipMet t st s) := by
  unfold skipMet
  split
  · refine .foldl (fun x a => ?_) _ _
    split
    · exact engineOutcome_sameRuns _ _ _ _
    · exact .refl x
  · exact .refl s

/-! ### A request at a unit leaves the engine alone -/

@[simp] theorem beginMarking_engine (d : Door) (m : Movement) (s : State) : (beginMarking d m s).engine = s.engine := by
  unfold beginMarking; dsimp only; split <;> simp

@[simp] theorem takeMovement_engine (d : Door) (m : Movement) (s : State) : (takeMovement d m s).1.engine = s.engine := by
  unfold takeMovement
  dsimp only
  repeat' split
  all_goals simp

@[simp] theorem requestMovement_engine (d : Door) (m : Movement) (s : State) :
    (requestMovement d m s).1.engine = s.engine := by
  unfold requestMovement
  dsimp only
  repeat' split
  all_goals simp

@[simp] theorem deny_engine (a : Aperture) (q : Requester) (g : List Tag) (r : Reason) (s : State) :
    (deny a q g r s).engine = s.engine := by
  unfold deny; simp only [tell_engine]; split <;> simp

@[simp] theorem dropHeld_engine (a : Aperture) (s : State) : (dropHeld a s).engine = s.engine := by
  unfold dropHeld; split <;> simp

@[simp] theorem endDrive_engine (a : Aperture) (s : State) : (endDrive a s).engine = s.engine := by
  unfold endDrive; dsimp only; split <;> simp

@[simp] theorem overrideDrive_engine (a : Aperture) (s : State) : (overrideDrive a s).engine = s.engine := by
  unfold overrideDrive; split <;> simp

@[simp] theorem resetTarget_engine (a : Aperture) (x : Actuator) (s : State) :
    (resetTarget a x s).engine = s.engine := by
  unfold resetTarget; split <;> first | rfl | (split <;> simp)

@[simp] theorem takeTarget_engine (a : Aperture) (x : HeldTarget) (s : State) : (takeTarget a x s).engine = s.engine := by
  unfold takeTarget; split <;> first | rfl | (split <;> simp)

@[simp] theorem hold_engine (a : Aperture) (x : HeldTarget) (q : Requester) (g : List Tag) (s : State) :
    (hold a x q g s).engine = s.engine := by
  unfold hold; dsimp only
  split <;> split <;> simp

@[simp] theorem seekDrive_engine (a : Aperture) (x : HeldTarget) (q : Requester) (g : List Tag) (s : State) :
    (seekDrive a x q g s).1.engine = s.engine := by
  unfold seekDrive; dsimp only; split <;> simp [beginDrive]

@[simp] theorem replaceEarlier_engine (a : Aperture) (x : HeldTarget) (s : State) :
    (replaceEarlier a x s).engine = s.engine := by
  unfold replaceEarlier
  dsimp only
  repeat' split
  all_goals simp

@[simp] theorem takeRequest_engine (a : Aperture) (x : HeldTarget) (q : Requester) (g : List Tag) (s : State) :
    (takeRequest a x q g s).1.engine = s.engine := by
  unfold takeRequest
  dsimp only
  repeat' split
  all_goals simp

@[simp] theorem requestRelease_engine (q : Requester) (g : List Tag) (s : State) :
    (requestRelease q g s).1.engine = s.engine := by
  unfold requestRelease startPulse
  dsimp only
  repeat' split
  all_goals simp

@[simp] theorem requestLatch_engine (a : Aperture) (x : HeldTarget) (q : Requester) (g : List Tag) (s : State) :
    (requestLatch a x q g s).1.engine = s.engine := by
  unfold requestLatch
  repeat' split
  all_goals simp

@[simp] theorem issueLatch_engine (t : Trigger) (g : Tag) (a : Aperture) (x : HeldTarget) (s : State) :
    (issueLatch t g a x s).engine = s.engine := by
  unfold issueLatch; split <;> simp

@[simp] theorem issueWindow_engine (t : Trigger) (g : Tag) (a : Aperture) (st : Step) (s : State) :
    (issueWindow t g a st s).engine = s.engine := by
  unfold issueWindow
  dsimp only
  repeat' split
  all_goals simp

@[simp] theorem issueOne_engine (t : Trigger) (g : Tag) (st : Step) (a : Aperture) (s : State) :
    (issueOne t g st a s).engine = s.engine := by
  unfold issueOne; split <;> simp

theorem issueAperture_sameRuns (t : Trigger) (g : Tag) (st : Step) (s : State) (a : Aperture) :
    SameRuns s (issueAperture t g st s a) := by
  have e : SameRuns s (deliver (discardOwn t g a (issueOne t g st a s))) :=
    (SameRuns.of_engine (issueOne_engine t g st a s) : SameRuns s (discardOwn t g a (issueOne t g st a s))).trans
      (deliver_sameRuns _)
  unfold issueAperture
  dsimp only
  repeat' split
  · exact .refl s
  · exact .refl s
  · exact e.trans (engineOutcome_sameRuns _ _ _ _)
  · exact e

theorem issueStep_sameRuns (t : Trigger) (st : Step) (s : State) : SameRuns s (issueStep t st s) := by
  unfold issueStep
  split
  · exact .refl s
  · exact (skipMet_sameRuns _ _ _).trans (.foldl (issueAperture_sameRuns _ _ _) _ _)

/-! ### The ACTIVE run -/

theorem activeTrigger_none {s : State} : activeTrigger s = none ↔ ∀ t r, runAt s t = some r → r.state ≠ .active := by
  simp only [activeTrigger, List.find?_eq_none]
  constructor
  · intro h t r e k
    have := h t (by cases t <;> simp [allTriggers])
    simp [e, k] at this
  · intro h t _
    cases e : runAt s t with
    | none => simp
    | some r => simpa using h t r e

theorem activeTrigger_some {s : State} {t : Trigger} (h : activeTrigger s = some t) :
    ∃ r, runAt s t = some r ∧ r.state = .active := by
  have := List.find?_some h
  cases e : runAt s t with
  | none => simp [e] at this
  | some r => exact ⟨r, rfl, by simpa [e] using this⟩

/-- The one ACTIVE run is the one found. -/
theorem activeTrigger_of_one {s : State} {t : Trigger} {r : Run} (o : oneActive s) (h : runAt s t = some r)
    (k : r.state = .active) : activeTrigger s = some t := by
  cases e : activeTrigger s with
  | none => exact absurd k (activeTrigger_none.1 e t r h)
  | some u =>
    obtain ⟨x, hx, ax⟩ := activeTrigger_some e
    rw [o u t x r hx h ax k]

theorem SameRuns.run {s t : State} (h : SameRuns s t) {u : Trigger} {r : Run} (k : runAt s u = some r) :
    ∃ x, runAt t u = some x ∧ x.state = r.state ∧ x.steps = r.steps ∧ x.step = r.step := by
  have e := h u
  rw [k] at e
  cases f : runAt t u with
  | none => simp [f] at e
  | some x => simp [f] at e; exact ⟨x, rfl, e.1, e.2.1, e.2.2⟩

theorem SameRuns.back {s t : State} (h : SameRuns s t) {u : Trigger} {x : Run} (k : runAt t u = some x) :
    ∃ r, runAt s u = some r ∧ x.state = r.state ∧ x.steps = r.steps ∧ x.step = r.step := by
  have e := h u
  rw [k] at e
  cases f : runAt s u with
  | none => simp [f] at e
  | some r => simp [f] at e; exact ⟨r, rfl, e.1, e.2.1, e.2.2⟩

theorem SameRuns.oneActive {s t : State} (h : SameRuns s t) (o : oneActive s) : oneActive t := by
  intro a b r x ha hb ra xb
  obtain ⟨r', e, f, -⟩ := h.back ha
  obtain ⟨x', e', f', -⟩ := h.back hb
  exact o a b r' x' e e' (f ▸ ra) (f' ▸ xb)

/-! ### The engine's own moves tell it nothing -/

@[simp] theorem writeWindow_mail (d : Door) (w : List WriteWaiter) (s : State) : (writeWindow d w s).mail = s.mail := rfl

@[simp] theorem toIdle_mail (d : Door) (s : State) : (toIdle d s).mail = s.mail := rfl

/-- A movement stopped without an outcome tells nobody: what waits in MARKING has then no follow-on. -/
@[simp] theorem stopMovement_mail (d : Door) (s : State) : (stopMovement d none s).mail = s.mail := by
  unfold stopMovement
  dsimp only
  split
  · rfl
  · have f : ∀ w : Window, (applyPending w).followOn = w.followOn := fun _ => rfl
    simp [comeToRest, f]
  · rfl
  · rfl

@[simp] theorem removeFollowOn_mail (d : Door) (s : State) : (removeFollowOn d none s).mail = s.mail := by
  unfold removeFollowOn
  dsimp only
  split <;> rfl

@[simp] theorem retireWindow_mail (t : Trigger) (s : State) (d : Door) : (retireWindow t s d).mail = s.mail := by
  unfold retireWindow
  dsimp only
  split <;> split <;> simp

theorem foldl_mail {α : Type} {f : State → α → State} (h : ∀ s x, (f s x).mail = s.mail) (l : List α) (s : State) :
    (l.foldl f s).mail = s.mail := by
  induction l generalizing s with
  | nil => rfl
  | cons x l ih => rw [List.foldl_cons, ih, h]

@[simp] theorem retire_mail (t : Trigger) (o : RunOutcome) (s : State) : (retire t o s).mail = s.mail := by
  unfold retire
  split
  · rfl
  · generalize allDoors = l
    exact foldl_mail (retireWindow_mail t) l s

@[simp] theorem cancelTrigger_mail (s : State) (t : Trigger) : (cancelTrigger s t).mail = s.mail := retire_mail _ _ _

/-! ### A firing with no run ACTIVE leaves none ACTIVE -/

theorem preempt_none {s : State} (t : Trigger) (h : activeTrigger s = none) : preempt t s = s := by
  unfold preempt; rw [h]

theorem noneActive_setRun {s : State} {t : Trigger} {r : Option Run} (h : activeTrigger s = none)
    (k : ∀ x, r = some x → x.state ≠ .active) : activeTrigger (setRun t r s) = none := by
  rw [activeTrigger_none] at h ⊢
  intro u x e
  rw [runAt_setRun] at e
  split at e
  · exact k x e
  · exact h u x e

theorem noneActive_of_runs {s t : State} (h : t.engine.runs = s.engine.runs) (k : activeTrigger s = none) :
    activeTrigger t = none := by
  simp only [activeTrigger, runAt, h] at k ⊢; exact k

theorem noneActive_cancelTrigger {s : State} (t : Trigger) (h : activeTrigger s = none) :
    activeTrigger (cancelTrigger s t) = none := by
  rw [activeTrigger_none] at h ⊢
  intro u x e
  rw [runAt_cancelTrigger] at e
  split at e
  · cases e
  · exact h u x e

theorem noneActive_foldl {α : Type} {f : State → α → State}
    (h : ∀ s x, activeTrigger s = none → activeTrigger (f s x) = none) (l : List α) {s : State}
    (k : activeTrigger s = none) : activeTrigger (l.foldl f s) = none := by
  induction l generalizing s with
  | nil => exact k
  | cons x l ih => exact ih (h s x k)

/-- A firing taken with no run ACTIVE leaves none ACTIVE and tells the engine nothing. -/
theorem takeFiring_none {s : State} (f : Firing) (i : Fin 64) (h : activeTrigger s = none) :
    activeTrigger (takeFiring f i s) = none ∧ (takeFiring f i s).mail = s.mail := by
  have a : ∀ (y : State) (l : List Trigger), y.engine.runs = (setRun f.trigger (some (newRun s f i)) s).engine.runs →
      y.mail = s.mail → activeTrigger (preempt f.trigger (stopRelock (l.foldl cancelTrigger y))) = none ∧
        (preempt f.trigger (stopRelock (l.foldl cancelTrigger y))).mail = s.mail := by
    intro y l e m
    have n : activeTrigger (stopRelock (l.foldl cancelTrigger y)) = none := by
      refine noneActive_of_runs (s := l.foldl cancelTrigger y) rfl
        (noneActive_foldl (fun s x => noneActive_cancelTrigger x) l ?_)
      refine noneActive_of_runs e (noneActive_setRun h ?_)
      rintro x ⟨⟩
      exact nofun
    rw [preempt_none _ n]
    exact ⟨n, (foldl_mail cancelTrigger_mail l y).trans m⟩
  unfold takeFiring
  dsimp only
  generalize (allTriggers.filter fun u =>
    u ≠ f.trigger && (triggerAt s f.trigger).cancelSet.getLsbD (triggerIndex u).val) = l
  exact a _ l rfl rfl

theorem noneActive_crashSweep {s : State} (h : activeTrigger s = none) : activeTrigger (crashSweep s) = none := by
  have step : ∀ (s : State) (u : Trigger), activeTrigger s = none →
      activeTrigger (setRefire u none (cancelTrigger s u)) = none := fun s u k =>
    noneActive_of_runs (s := cancelTrigger s u) rfl (noneActive_cancelTrigger u k)
  unfold crashSweep
  generalize (allTriggers.filter fun u => u ≠ .crash) = l
  exact noneActive_of_runs (s := l.foldl _ s) rfl (noneActive_foldl step l h)

theorem noneActive_fire {s : State} (f : Firing) (h : activeTrigger s = none) : activeTrigger (fire f s).1 = none := by
  have d : ∀ s, activeTrigger s = none → activeTrigger (decideFiring f s).1 = none := by
    intro s h
    have k : ∀ r x, runAt s f.trigger = some r → x.state = r.state →
        activeTrigger (setRun f.trigger (some x) s) = none := by
      intro r x e k
      refine noneActive_setRun h ?_
      rintro y ⟨⟩
      rw [k]; exact activeTrigger_none.1 h _ r e
    unfold decideFiring
    dsimp only
    split
    · exact h
    · split
      · exact (takeFiring_none f _ h).1
      · next r e =>
        split
        · exact noneActive_of_runs rfl h
        · split
          · exact k r _ e rfl
          · exact h
        · split
          · exact k r _ e rfl
          · exact noneActive_of_runs (s := s) (t := setRefire f.trigger (some f.carried) s) rfl h
  unfold fire
  split
  · refine d _ (noneActive_crashSweep h)
  · exact d _ h

/-- The record of the ACTIVE run removed: no run is ACTIVE. -/
theorem noneActive_ended {s : State} {t : Trigger} (r : Run) (o : RunOutcome) (l : Option (Fin 64))
    (h : ∀ u x, u ≠ t → runAt s u = some x → x.state ≠ .active) :
    activeTrigger (startRelock t o (removeRun t r o l s)) = none := by
  have : activeTrigger (removeRun t r o l s) = none := by
    rw [activeTrigger_none]
    intro u x e
    have e : runAt (setRun t none s) u = some x := e
    rw [runAt_setRun] at e
    split at e
    · cases e
    · next n => exact h u x (Ne.symm n) e
  unfold startRelock
  split
  · exact noneActive_of_runs rfl this
  · exact this

/-- The ACTIVE run that ends leaves no run ACTIVE. -/
theorem noneActive_endRun {s : State} {t : Trigger} (r : Run) (o : RunOutcome)
    (h : ∀ u x, u ≠ t → runAt s u = some x → x.state ≠ .active) : activeTrigger (endRun t r o s) = none := by
  unfold endRun
  dsimp only
  split
  · exact noneActive_ended r o _ h
  · exact noneActive_fire _ (noneActive_of_runs rfl (noneActive_ended r o _ h))

/-- A firing with no run ACTIVE tells the engine nothing. -/
theorem fire_mail {s : State} (f : Firing) (h : activeTrigger s = none) : (fire f s).1.mail = s.mail := by
  have d : ∀ s, activeTrigger s = none → (decideFiring f s).1.mail = s.mail := by
    intro s h
    unfold decideFiring
    dsimp only
    repeat' split
    all_goals first
      | rfl
      | exact (takeFiring_none f _ h).2
  unfold fire
  split
  · rw [d _ (noneActive_crashSweep h)]
    unfold crashSweep
    generalize (allTriggers.filter fun u => u ≠ .crash) = l
    exact foldl_mail (f := fun s u => setRefire u none (cancelTrigger s u)) (fun s u => cancelTrigger_mail s u) l s
  · exact d _ h

theorem endRun_mail {s : State} {t : Trigger} (r : Run) (o : RunOutcome)
    (h : ∀ u x, u ≠ t → runAt s u = some x → x.state ≠ .active) : (endRun t r o s).mail = s.mail := by
  have e : ∀ l, (startRelock t o (removeRun t r o l s)).mail = s.mail := by
    intro l; unfold startRelock; split <;> rfl
  unfold endRun
  dsimp only
  split
  · exact e _
  · exact (fire_mail (s := setRefire t none _) _ (noneActive_of_runs rfl (noneActive_ended r o _ h))).trans (e _)

theorem issueAperture_mail {s : State} (t : Trigger) (g : Tag) (st : Step) (a : Aperture) (h : s.mail = []) :
    (issueAperture t g st s a).mail = [] := by
  have e : ∀ o s, s.mail = [] → (engineOutcome t a o s).mail = [] := by
    intro o s h; unfold engineOutcome; repeat' split
    all_goals exact h
  unfold issueAperture
  dsimp only
  repeat' split
  · exact h
  · exact h
  · exact e _ _ (deliver_mail _)
  · exact deliver_mail _

theorem issueStep_mail {s : State} (t : Trigger) (st : Step) (h : s.mail = []) : (issueStep t st s).mail = [] := by
  have f : ∀ (l : List Aperture) (g : Tag) (s : State), s.mail = [] → (l.foldl (issueAperture t g st) s).mail = [] := by
    intro l
    induction l with
    | nil => exact fun _ _ h => h
    | cons a l ih => exact fun g s h => ih g _ (issueAperture_mail t g st a h)
  unfold issueStep
  split
  · exact h
  · refine f _ _ _ ?_
    unfold skipMet
    split
    · rw [foldl_mail ?_ _ _]
      · exact h
      · intro x a; split
        · unfold engineOutcome; repeat' split
          all_goals rfl
        · rfl
    · exact h

@[simp] theorem requestSearch_engine (z : Zone) (p : Purpose) (w : List SearchWaiter) (s : State) :
    (requestSearch z p w s).engine = s.engine := by
  unfold requestSearch; dsimp only; split <;> first | rfl | (split <;> rfl)

@[simp] theorem requestSearch_mail (z : Zone) (p : Purpose) (w : List SearchWaiter) (s : State) :
    (requestSearch z p w s).mail = s.mail := by
  unfold requestSearch; dsimp only; split <;> first | rfl | (split <;> rfl)

/-- A denied role changes no run's state and no step count. -/
theorem denyRole_kept (r : Run) : (denyRole r).state = r.state ∧ (denyRole r).steps = r.steps := by
  unfold denyRole
  generalize allApertures = l
  induction l generalizing r with
  | nil => exact ⟨rfl, rfl⟩
  | cons b l ih =>
    rw [List.foldl_cons, (ih _).1, (ih _).2]
    split <;> exact ⟨rfl, rfl⟩

/-! ### The ACTIVE run moves a bounded number of times (07, R141) -/

/-- How many moves a run can still make before it ends: two a step, of which it begins at most 64. -/
def movesLeft (r : Run) : Nat := 2 * (64 - r.steps) + if r.step.isSome then 2 else 1

/-- What one move of the ACTIVE run comes to: nothing on its way to the engine, still at most one run ACTIVE, and the
run has ended, is parked, or is the ACTIVE run with fewer moves left. -/
def Moved (s x : State) : Prop :=
  x.mail = [] ∧ oneActive x ∧
    (activeTrigger x = none ∨ ∃ u r y, activeTrigger s = some u ∧ runAt s u = some r ∧ activeTrigger x = some u ∧
      runAt x u = some y ∧ movesLeft y < movesLeft r)

theorem oneActive_of_none {s : State} (h : activeTrigger s = none) : oneActive s :=
  fun t _ r _ e _ a _ => absurd a (activeTrigger_none.1 h t r e)

theorem Moved.still {s x : State} (m : x.mail = []) (h : activeTrigger x = none) : Moved s x :=
  ⟨m, oneActive_of_none h, .inl h⟩

theorem Moved.goesOn {s x : State} {u : Trigger} {r z : Run} (o : oneActive s) (h : runAt s u = some r)
    (a : r.state = .active) (b : z.state = .active) (k : SameRuns (setRun u (some z) s) x) (m : x.mail = [])
    (l : movesLeft z < movesLeft r) : Moved s x := by
  have oz : oneActive (setRun u (some z) s) := by
    intro t v p q hp hq ap aq
    rw [runAt_setRun] at hp hq
    by_cases et : u = t <;> by_cases ev : u = v
    · exact et.symm.trans ev
    · rw [if_neg ev] at hq; exact et ▸ o u v r q h hq a aq
    · rw [if_neg et] at hp; exact ev ▸ o t u p r hp h ap a
    · rw [if_neg et] at hp; rw [if_neg ev] at hq; exact o t v p q hp hq ap aq
  have ox := k.oneActive oz
  obtain ⟨y, hy, sy, ty, py⟩ := k.run (runAt_setRun_same u (some z) s)
  refine ⟨m, ox, .inr ⟨u, r, y, activeTrigger_of_one o h a, h, activeTrigger_of_one ox hy (sy.trans b), hy, ?_⟩⟩
  rwa [movesLeft, ty, py]

theorem engineMove_moved {s x : State} (o : oneActive s) (m : s.mail = []) (h : engineMove s = some x) : Moved s x := by
  unfold engineMove at h
  split at h
  · cases h
  next u e =>
  obtain ⟨r, hr, a⟩ := activeTrigger_some e
  rw [hr] at h
  dsimp only at h
  have others : ∀ v y, v ≠ u → runAt s v = some y → y.state ≠ .active := fun v y n k b => n (o v u y r k hr b a)
  have others' : ∀ z v y, v ≠ u → runAt (setRun u z s) v = some y → y.state ≠ .active := by
    intro z v y n k
    rw [runAt_setRun, if_neg (Ne.symm n)] at k
    exact others v y n k
  have ended : ∀ (z : Run) (c : RunOutcome) (y : State), y.engine.runs = s.engine.runs ∨
      (∃ w, y.engine.runs = (setRun u w s).engine.runs) → y.mail = [] → Moved s (endRun u z c y) := by
    intro z c y k n
    have oy : ∀ v q, v ≠ u → runAt y v = some q → q.state ≠ .active := by
      intro v q d f
      rcases k with k | ⟨w, k⟩
      · exact others v q d (by simpa only [runAt, k] using f)
      · exact others' w v q d (by simpa only [runAt, k] using f)
    exact .still ((endRun_mail z c oy).trans n) (noneActive_endRun z c oy)
  have parked : ∀ (z : Run) f, Moved s (park u z f s) ∧ Moved s (park u z f (setRun u (some z) s)) := by
    intro z f
    have k : ∀ (y : State), (∀ v q, v ≠ u → runAt y v = some q → q.state ≠ .active) → y.mail = [] →
        Moved s (park u z f y) := by
      intro y oy n
      refine .still n (noneActive_of_runs
        (s := setRun u (some { z with state := .faulted, fault := some f, hold := none }) y) rfl ?_)
      rw [activeTrigger_none]
      intro v q g
      rw [runAt_setRun] at g
      split at g
      · cases g; exact nofun
      · next d => exact oy v q (Ne.symm d) g
    exact ⟨k s others m, k _ (others' _) m⟩
  split at h
  · next es =>
    cases h
    unfold beginStep
    split
    · exact ended _ _ _ (.inl rfl) m
    · next lt =>
      have lt : r.steps < 64 := by simpa [Times.stepLimit] using lt
      have low : ∀ z : Run, z.steps = r.steps + 1 → movesLeft z < movesLeft r := by
        intro z ez
        unfold movesLeft
        rw [ez, es]
        split <;> simp <;> omega
      dsimp only
      split
      · unfold damagedStep
        split
        · next c => subst c; exact ended _ _ _ (.inr ⟨_, rfl⟩) m
        · exact (parked _ _).2
      · next st _ =>
        split
        · exact ended _ _ _ (.inr ⟨_, rfl⟩) m
        · exact .goesOn o hr a (by exact a) (.refl _) m (by exact low _ rfl)
        · refine .goesOn o hr a (by exact a) (.of_engine (requestSearch_engine _ _ _ _)) ?_ (by exact low _ rfl)
          rw [requestSearch_mail]; exact m
        · split
          · have d := denyRole_kept { { r with
                steps := r.steps + 1, outcomes := Five.all none, remaining := Five.all false, pause := none,
                searchWait := false, searchResult := none } with
              step := some st, remaining := resolvedSet st r.origin }
            exact .goesOn o hr a (by exact d.1.trans a) (.refl _) m (by exact low _ d.2)
          · exact .goesOn o hr a (by exact a) (issueStep_sameRuns _ _ _) (issueStep_mail _ _ m) (by exact low _ rfl)
  · next st es =>
    split at h
    · cases h
      have after : ∀ (z : Run) (y : State), z.state = .active → z.steps = r.steps →
          y.engine.runs = s.engine.runs ∨ (∃ w, y.engine.runs = (setRun u w s).engine.runs) → y.mail = [] →
          Moved s (afterStep u z st y) := by
        intro z y az sz k n
        unfold afterStep
        dsimp only
        have k' : ∀ y' : State, y'.engine.runs = y.engine.runs → y'.engine.runs = s.engine.runs ∨
            (∃ w, y'.engine.runs = (setRun u w s).engine.runs) := fun y' e => e ▸ k
        have g : (if hasNotify st then raise .chainNotify y else y).engine.runs = y.engine.runs := by split <;> rfl
        have n' : (if hasNotify st then raise .chainNotify y else y).mail = [] := by split <;> exact n
        split
        · exact ended _ _ _ (k' _ g) n'
        · split
          · exact ended _ _ _ (k' _ g) n'
          · split
            · exact ended _ _ _ (k' _ g) n'
            · next lt =>
              have lt : z.steps < 64 := by simpa [Times.stepLimit] using lt
              refine .goesOn o hr a (z := { z with stepIndex := st.next, step := none }) az (.of_runs ?_) n' ?_
              · have put2 : ∀ (v : Vector (Option Run) 14) i p q, put (put v i p) i q = put v i q := by
                  intro v i p q; simp [put]
                show put (if hasNotify st then raise .chainNotify y else y).engine.runs _ _ = _
                rw [g]
                rcases k with k | ⟨w, k⟩
                · rw [k]; rfl
                · rw [k]; exact put2 _ _ _ _
              · unfold movesLeft
                rw [es]
                simp [sz]
      unfold completeStep
      split
      · exact ended _ _ _ (.inl rfl) m
      · split
        · split
          · next c => subst c; exact after _ _ a rfl (.inr ⟨_, rfl⟩) m
          · exact (parked _ _).1
        · exact after r s a rfl (.inl rfl) m
    · cases h

end Sys2Proof.Machine
end

