-- ==== Sys2Proof/Tests/Slice0.lean ====
section
/-! SUPPORT. Small tests: the well-formedness check, a few commands on small states, and, for every obligation with
hypotheses, a state and operands that meet them (`test_meets_…`), each clause at the edges of its range. -/

namespace Sys2Proof.Tests

open Sys2Proof Sys2Proof.Machine

/-! ### Small states -/

/-- A part whose scan has completed, every switch qualified, every aperture closed, the crash hold CLEAR. -/
def served : State :=
  { State.reset with
    store := { Store.reset Flash.erased with scanDone := true }
    latches := { Latches.reset with crashHold := false }
    inputs := { Inputs.reset with
      pair := Five.all { raw := ⟨false, false⟩, since := 0, value := ⟨false, false⟩, first := true }
      ajar := Five.all { raw := false, since := 0, value := false, first := true } } }

/-- That part with speed known 0. -/
def standing : State := { served with vehicle := { served.vehicle with taken := some 0, discard := false } }

/-- That part with a request in progress. -/
def working : State := { served with link := { served.link with state := .working } }

/-- A reply held. -/
def okReply : Reply := { status := .ok, overrun := false, payload := [] }

/-- That part with a reply held. -/
def replying : State := { served with link := { served.link with state := .replyReady okReply } }

/-- A sound MASTER record. -/
def master : KeyStored :=
  { KeyStored.empty with state := .active, identity := some 7, role := .master,
                         profile := { unlockMode := .all, passiveEntry := true, comfortWindows := true } }

/-- That part with one MASTER key in slot 0 and the enrollment window open. -/
def keyed : State :=
  { served with keys := { served.keys with
      recs := put served.keys.recs 0 (KeyRecord.load master), window := some { expiry := 30000000, slot := 0 } } }

/-- That part with one Latch Unit as given. -/
def withLatch (a : Aperture) (u : LatchUnit) : State := setLatch a u standing

/-- A drive from 0. -/
def drive (t : HeldTarget) (r : Requester) : Drive := { target := t, requester := r, tags := [⟨0, 1, false⟩], start := 0 }

/-- A window at a position of a travel of 1000 steps, normalized. -/
def normal (p : Nat) : Window :=
  { Window.reset with
    known := true
    record := { WindowRec.blank with travel := some 1000, position := p, refs := Vector.replicate 16 (some 2000) } }

/-- A motion that has run `n` edges since 0. -/
def motion (dir : Direction) (mode : MoveMode) (n : Nat) : Motion :=
  { freshMotion (plainMove dir mode .link []) with pulses := n, started := some 0 }

/-- That part with the window of FL as given. -/
def withWindow (w : Window) : State := setWindow .fl w standing

/-- A window of FL in a phase with a motion. -/
def moving (w : Window) (ph : Phase) (m : Motion) : State :=
  withWindow { w with phase := ph, motion := some m, lastEdge := some 0 }

/-- A run in a state with a priority. -/
def run (st : RunState) (p : Nat) : Run :=
  { serial := 0, state := st, priority := p, stepIndex := 0, step := none, remaining := Five.all false,
    outcomes := Five.all none, role := .system, slot := none, origin := .fl, staged := false, steps := 0,
    pause := none, searchWait := false, searchResult := none, fault := none, hold := none }

/-- That part with a run of FOB_LOCK. -/
def withRun (r : Run) : State := setRun .fobLock (some r) served

/-! ### Well-formedness -/

theorem test_wellFormed_refuses_a_read_told_as_a_bad_frame : (Instr.badFrameReply [0, 1]).wellFormed = false := by decide
set_option maxRecDepth 20000 in
theorem test_wellFormed_refuses_a_good_frame_told_as_a_bad_one :
    (Instr.badFrameReply [1, 0, crc8 [1, 0]]).wellFormed = false := rfl
set_option maxRecDepth 20000 in
theorem test_wellFormed_takes_a_bad_frame : (Instr.badFrameReply [1, 0, 0]).wellFormed = true := rfl
theorem test_wellFormed_refuses_a_read_told_as_an_overrun : (Instr.overrun [0]).wellFormed = false := by decide
theorem test_wellFormed_refuses_a_dip_that_is_none : (Instr.lowVoltageReset 5500).wellFormed = false := by decide
theorem test_wellFormed_takes_a_dip : (Instr.lowVoltageReset 5499).wellFormed = true := by decide

/-! ### Commands on small states -/

set_option maxRecDepth 20000 in
/-- The CRC-8 of the bytes 0x31 to 0x39 is the check value of its polynomial, start and final XOR. -/
theorem test_crc8_check_value : crc8 [0x31, 0x32, 0x33, 0x34, 0x35, 0x36, 0x37, 0x38, 0x39] = 0x4B := rfl

theorem test_no_word_spells_a_command : decodeTableWord 8 0 = none := rfl

theorem test_a_press_of_every_fob_command_is_read :
    readBurst [1, 0, 0, 0, 7, 0, 0, 9, 0x82, 1, 2, 3, 4] =
      .command { identity := 7, counter := 9, command := .tailgate, batteryLow := true, check := 0x01020304 } := by decide

theorem test_a_burst_with_an_unknown_command_is_malformed :
    readBurst [1, 0, 0, 0, 7, 0, 0, 9, 5, 1, 2, 3, 4] = .malformed := by decide

theorem test_zone_of_the_open_end : zoneOf 200 200 = 15 := by decide

theorem test_defaults_lock_all_but_do_not_deadlock : (defaultStep 2).action = .lock ∧ (defaultStep 3).action = .deadlock := by
  decide

/-! ### The obligations' hypotheses are met -/

theorem test_meets_StepTakesTheFrontCommand :
    { served with pending := [.park] }.pending = .park :: [] ∧ served.pending = [] := ⟨rfl, rfl⟩

theorem test_meets_EachTableHasItsOwnCommands :
    mayReset .speedStale = false ∧ (∃ t, exec .speedStale served = .next t) ∧ changesKeys .speedStale = false ∧
      changesChains .speedStale = false ∧ Instr.speedStale ≠ .storeWriteComplete :=
  ⟨rfl, ⟨_, rfl⟩, rfl, rfl, nofun⟩

theorem test_meets_PartHeldInResetTakesNothing :
    { served with power := .lowVoltage }.power ≠ .running ∧ { served with power := .lost }.power ≠ .running ∧
      Instr.park ≠ .powerOnReset ∧ (∀ v, Instr.park ≠ .lowVoltageReset v) ∧ Instr.park ≠ .partRestart ∧
      (∀ x, Instr.park ≠ .rawInputChange x) := ⟨nofun, nofun, nofun, nofun, nofun, nofun⟩

theorem test_meets_ResetsSetTheirCauses :
    served.power = .running ∧ (5499 < 5500 ∧ 2500 ≤ 5499) ∧ (2500 < 5500 ∧ 2500 ≤ 2500) ∧ 2499 < 2500 ∧
      { replying with sup := { replying.sup with pendingReset := true } }.sup.pendingReset = true ∧
      replying.link.state = .replyReady okReply ∧ { served with power := .lowVoltage }.power = .lowVoltage := by
  refine ⟨rfl, by decide, by decide, by decide, rfl, rfl, rfl⟩

theorem test_meets_ResetTearsOnlyTheWriteInFlight :
    served.store.inFlight = none ∧ ∃ e, { served with store := { served.store with
      inFlight := some { id := .crash, content := .crash true, waiters := [] } } }.store.inFlight = some e :=
  ⟨rfl, _, rfl⟩

set_option maxRecDepth 20000 in
theorem test_meets_LinkAnswersWhatItCannotServe :
    (requestOf .park = some (4, []) ∧ Instr.park ≠ .deviceStatus ∧ Listening State.reset ∧
      State.reset.store.scanDone = false) ∧
    (isRequest [] = true ∧ intact [] = false) ∧
    (isRequest [0x20, 0, crc8 [0x20, 0]] = true ∧ intact [0x20, 0, crc8 [0x20, 0]] = true ∧
      payloadLength 0x20 = none) ∧
    (isRequest [1, 1, 0, crc8 [1, 1, 0]] = true ∧ intact [1, 1, 0, crc8 [1, 1, 0]] = true ∧
      payloadLength 1 = some 0) := by
  exact ⟨⟨rfl, nofun, ⟨rfl, nofun⟩, rfl⟩, ⟨rfl, rfl⟩, ⟨rfl, rfl, rfl⟩, ⟨rfl, rfl, rfl⟩⟩

theorem test_meets_LinkAnswersWhatItCannotServe_operands :
    Serving served ∧ 8 ≤ (8 : Byte).toNat ∧ 3 ≤ (3 : Byte).toNat ∧ 2 ≤ (2 : Byte).toNat ∧ 64 ≤ (64 : Byte).toNat ∧
      12 ≤ (12 : Byte).toNat ∧ 32 ≤ (32 : Byte).toNat ∧ 14 ≤ (14 : Byte).toNat ∧ (254 : Byte).toNat ≤ 254 ∧
      16384 ≤ (0x4000 : BitVec 16).toNat ∧ 5 ≤ (5 : Byte).toNat ∧ 4 ≤ (4 : Byte).toNat ∧
      (actionOf 8 = some .windowTo ∧ 100 < (101 : Byte).toNat) ∧
      (actionOf 10 = some .pause ∧ (0 : Byte).toNat = 0 ∧ 250 < (251 : Byte).toNat) :=
  ⟨⟨⟨rfl, nofun⟩, rfl⟩, by decide⟩

set_option maxRecDepth 20000 in
theorem test_meets_RequestsWhileWorkingOnlyMarkOverrun :
    working.power = .running ∧ working.link.state = .working ∧ requestOf .park = some (4, []) ∧
      (isRequest [1] = true ∧ intact [1] = false) ∧
      (isRequest [1, 0, crc8 [1, 0]] = true ∧ intact [1, 0, crc8 [1, 0]] = true) := by
  exact ⟨rfl, rfl, rfl, ⟨rfl, rfl⟩, ⟨rfl, rfl⟩⟩

theorem test_meets_ReadSendsTheHeldReplyOrBusy :
    (replying.power = .running ∧ replying.link.state = .replyReady okReply ∧ replying.sup.pendingReset = false) ∧
      (∀ r, working.link.state ≠ .replyReady r) ∧ ∀ r, served.link.state ≠ .replyReady r := by
  refine ⟨⟨rfl, rfl, rfl⟩, nofun, nofun⟩

theorem test_meets_FrameOfARequestIsThatRequest : requestBytes .park = some [4, 0, crc8 [4, 0]] := rfl

theorem serving : Serving served := ⟨⟨rfl, nofun⟩, rfl⟩
theorem settled : Settled served := ⟨rfl, rfl⟩

theorem test_meets_AttentionAndSettingsRequests :
    Serving served ∧ boolOf 0 = some false ∧ boolOf 1 = some true ∧ boolOf 2 = none ∧
      clampSettings false true 15 5 45 45 4 = served.link.settings ∧
      clampSettings true true 15 5 45 45 4 ≠ served.link.settings := by
  refine ⟨serving, by decide, by decide, by decide, by decide, by decide⟩

theorem test_meets_AttentionAndSettingsRequests_changes :
    let old := served.link.settings
    (clampSettings true true 15 5 45 45 4).driverFr ≠ old.driverFr ∧
      (clampSettings false true 15 6 45 45 4 ≠ old ∧ (clampSettings false true 15 6 45 45 4).driverFr = old.driverFr ∧
        (clampSettings false true 15 6 45 45 4).autoLock = old.autoLock ∧
        (clampSettings false true 15 6 45 45 4).speedThreshold = old.speedThreshold) ∧
      (clampSettings false false 15 5 45 45 4).autoLock ≠ old.autoLock ∧
      (clampSettings false true 4 5 45 45 4).speedThreshold ≠ old.speedThreshold ∧
      (switchAt (taken 7 served).inputs .passenger).delivered = .neutral ∧
      (switchAt (taken 7 { served with inputs := { served.inputs with
        passenger := { served.inputs.passenger with delivered := .closing } } }).inputs .passenger).delivered ≠
          .neutral := by decide

theorem test_meets_ReadRequestsReplyTheirRecord :
    Listening State.reset ∧ Serving keyed ∧ (0 : Byte).toNat = (0 : Fin 8).val ∧ (7 : Byte).toNat = (7 : Fin 8).val ∧
      8 ≤ (8 : Byte).toNat ∧ findIdentity keyed 7 = some 0 ∧ findIdentity keyed 8 = none ∧
      (63 : Byte).toNat = (63 : Fin 64).val ∧ 64 ≤ (64 : Byte).toNat ∧
      (13 : Byte).toNat = (triggerIndex .linkFire).val ∧ 14 ≤ (14 : Byte).toNat ∧
      (0 : Byte).toNat = apertureCode .fl ∧ (4 : Byte).toNat = apertureCode .tg ∧ 6 ≤ (6 : Byte).toNat := by
  refine ⟨⟨rfl, nofun⟩, ⟨⟨rfl, nofun⟩, rfl⟩, by decide, by decide, by decide, by decide, by decide, by decide,
    by decide, by decide, by decide, by decide, by decide, by decide⟩

theorem test_meets_WakeSourcesWakeOnlyAParkedPart :
    served.sup.mode ≠ .parked ∧ { served with sup := { served.sup with mode := .parked } }.sup.mode = .parked :=
  ⟨nofun, rfl⟩

theorem test_meets_SupervisionRequestsAndParking :
    Serving served ∧ atRest (taken 0 served) = true ∧ atRest (taken 0 (withRun (run .ready 1))) = false ∧
      served.sup.mode = .active ∧
      served.sup.silence = some { start := 0, interval := ms 800, atReset := true } :=
  ⟨serving, rfl, rfl, rfl, rfl⟩

theorem test_meets_VehicleStateIsTakenAndGrowsStale :
    Serving served ∧ powerModeOf 3 = none ∧ powerModeOf 0 = some .off ∧ powerModeOf 2 = some .run ∧
      standing.power = .running ∧ standing.vehicle.taken = some 0 ∧
      { served with vehicle := { served.vehicle with retained := some 9 } }.vehicle.retained = some 9 ∧
      gateOpen served = false := by
  refine ⟨serving, by decide, by decide, by decide, rfl, rfl, rfl, rfl⟩

/-- That part, the mark armed, at a speed taken now. -/
def driving (n : Nat) : State := { standing with vehicle := { standing.vehicle with speed := n } }

theorem test_meets_VehicleStateIsTakenAndGrowsStale_speed_lock :
    let due := fun s : State => s.engine.armed = true ∧ s.link.settings.autoLock = true ∧ speedKnown s = true ∧
      s.link.settings.speedThreshold ≤ s.vehicle.speed ∧ ∀ a, isClosed s a = true
    due (driving 15) ∧ ¬due (driving 14) ∧ (served.vehicle.powerMode = .off ∧ PowerMode.run ≠ .off) ∧
      (0 : BitVec 16).toNat = 0 ∧ (1 : BitVec 16).toNat ≠ 0 := by
  refine ⟨⟨rfl, rfl, rfl, by decide, fun a => by cases a <;> rfl⟩, fun h => ?_, by decide, rfl, by decide⟩
  exact absurd h.2.2.2.1 (by decide)

theorem test_meets_SupplyAndWiresAreRead :
    served.power = .running ∧ (8999 < 9000 ∧ 16500 < 16501) ∧ (9500 ≤ 9500 ∧ 9500 ≤ 16000) ∧
      (9500 ≤ 16000 ∧ 16000 ≤ 16000) ∧ (9000 ≤ 9000 ∧ 9000 < 9500) ∧ (9000 ≤ 9499 ∧ 9499 < 9500) ∧
      (16000 < 16001 ∧ 16500 ≤ 16500) ∧ (served.inputs.ajar.get .fl).raw ≠ true ∧
      (served.inputs.ajar.get .fl).raw = false ∧ (served.inputs.pair.get .fl).raw.lock ≠ true := by
  decide

theorem test_meets_SupplyAndWiresAreRead_levels :
    (Qual.fresh false).raw = false ∧ (Qual.fresh false).raw ≠ true ∧ (served.inputs.pair.get .tg).raw = ⟨false, false⟩ ∧
      (Qual.fresh RockerPos.neutral).raw ≠ .lock ∧ (Qual.fresh SwitchPos.neutral).raw ≠ .closeAuto ∧
      (padAt served.inputs .frLock).contact = false ∧ (padAt served.inputs .frLock).contact ≠ true ∧
      served.inputs.crashLine.asserted = false ∧ served.inputs.crashLine.asserted ≠ true := by decide

/-- A switch pair about to qualify while a drive toward LOCKED runs at FL. -/
def pairDue (v : Levels) : State :=
  let s := withLatch .fl { LatchUnit.reset with drive := some (drive .locked .link) }
  { s with inputs := { s.inputs with
      pair := s.inputs.pair.set .fl { raw := v, since := 0, value := ⟨false, false⟩, first := false } } }

theorem test_meets_QualifiedPairsEndDrives :
    (∀ v, (pairDue v).power = .running ∧ due true ((pairDue v).inputs.pair.get .fl) = true ∧
      (latchAt (pairDue v) .fl).drive = some (drive .locked .link)) ∧
    actuatorOf .locked = .latch ∧ sensedOf .fl ⟨true, false⟩ = latchStateOf .locked ∧
    sensedOf .fl ⟨false, true⟩ = .invalid ∧ sensedOf .fl ⟨false, false⟩ ≠ .invalid ∧
    sensedOf .fl ⟨false, false⟩ ≠ latchStateOf .locked := by
  refine ⟨fun v => ⟨rfl, by simp [due, pairDue, Five.set, Five.get], rfl⟩, by decide, by decide, by decide, by decide,
    by decide⟩

/-- A switch pair of FL or FR about to qualify with no latch drive, with or without a first value, and a request held
at FL. -/
def pairAlone (a : Aperture) (v : Levels) (first : Bool) : State :=
  let s := withLatch .fl { LatchUnit.reset with held := some { target := .locked, requester := .link, tags := [] } }
  { s with inputs := { s.inputs with
      pair := s.inputs.pair.set a { raw := v, since := 0, value := ⟨true, true⟩, first } } }

theorem test_meets_QualifiedPairsEndDrives_alone :
    (∀ a v b, (pairAlone a v b).power = .running ∧ ((pairAlone a v b).inputs.pair.get a).first = b ∧
      ((pairAlone a v b).inputs.pair.get a).raw = v) ∧
    (∀ v, due true ((pairAlone .fl v false).inputs.pair.get .fl) = true) ∧
    due true ((pairAlone .fl ⟨false, true⟩ true).inputs.pair.get .fl) = true ∧
    (latchAt (pairAlone .fl ⟨false, true⟩ true) .fl).drive = none ∧
    (latchAt (pairAlone .fl ⟨true, false⟩ true) .fl).held =
      some { target := .locked, requester := .link, tags := [] } ∧
    (latchAt (pairAlone .fr ⟨true, false⟩ true) .fr).held = none ∧ actuatorOf .locked = .latch ∧
    (actuatorOf .on ≠ .latch ∧ sensedOf .fl ⟨false, true⟩ = .invalid ∧ sensedOf .tg ⟨false, true⟩ ≠ .invalid) := by
  refine ⟨fun a v b => ?_, fun v => by simp [due, pairAlone, Five.set, Five.get], by decide, rfl, rfl, rfl, rfl,
    by decide⟩
  cases a <;> exact ⟨rfl, rfl, rfl⟩

/-- RL's child-lock switch about to qualify ON, with a drive or a held request of its channel. -/
def childDue (first : Bool) (d : Option HeldTarget) (h : Option HeldTarget) : State :=
  let s := withLatch .rl { LatchUnit.reset with
    drive := d.map fun x => drive x .link
    held := h.map fun x => { target := x, requester := .link, tags := [] } }
  { s with inputs := { s.inputs with
      childSwitch := s.inputs.childSwitch.set .rl { raw := true, since := 0, value := false, first } } }

theorem test_meets_QualifiedPairsEndDrives_child :
    (∀ b d h, (childDue b d h).power = .running ∧ due true ((childDue b d h).inputs.childSwitch.get .rl) = true ∧
      ((childDue b d h).inputs.childSwitch.get .rl).first = b ∧
      ((childDue b d h).inputs.childSwitch.get .rl).raw = true ∧
      (latchAt (childDue b d h) .rl).drive = d.map (fun x => drive x .link) ∧
      (latchAt (childDue b d h) .rl).held = h.map fun x => { target := x, requester := .link, tags := [] }) ∧
    actuatorOf .on = .child ∧ actuatorOf .off = .child ∧ actuatorOf .locked ≠ .child ∧
    true = decide (HeldTarget.on = .on) ∧ true ≠ decide (HeldTarget.off = .on) := by
  refine ⟨fun b d h => ⟨rfl, rfl, rfl, rfl, rfl, rfl⟩, by decide⟩

/-- The part with the FL unlock pad and the FL ajar contact as given. -/
def touching (contact ready isOpen : Bool) : State :=
  { served with inputs := { served.inputs with
      padUnlock := ⟨{ contact, since := 0, ready }, { contact, since := 0, ready }⟩
      ajar := served.inputs.ajar.set .fl { raw := isOpen, since := 0, value := !isOpen, first := true } } }

theorem test_meets_AjarChangesAndTouchesAreDelivered :
    ((touching true true true).inputs.ajar.get .fl).raw ≠ ((touching true true true).inputs.ajar.get .fl).value ∧
    ((touching true true true).inputs.ajar.get .fl).raw = true ∧
    (∀ c r, Settled (touching c r true) ∧ (touching c r true).power = .running ∧
      (padAt (touching c r true).inputs .flUnlock).contact = c ∧
      (padAt (touching c r true).inputs .flUnlock).ready = r ∧ (touching c r true).vehicle.powerMode = .off ∧
      (touching c r true).entry.search = none ∧ (touching c r true).entry.queue = []) := by
  exact ⟨by decide, rfl, fun c r => ⟨⟨rfl, rfl⟩, rfl, rfl, rfl, rfl, rfl, rfl⟩⟩

theorem test_meets_AjarChangesAndTouchesAreDelivered_closed_and_driving :
    ((touching true true false).inputs.ajar.get .fl).raw = false ∧
      ((touching true true false).inputs.ajar.get .fl).raw ≠ ((touching true true false).inputs.ajar.get .fl).value ∧
      { touching true true true with vehicle := { served.vehicle with powerMode := .run } }.vehicle.powerMode ≠ .off ∧
      Aperture.rl ≠ .fl ∧ Aperture.rl ≠ .fr := by decide

/-- Every control about to qualify, with or without a first value. -/
def controls (first : Bool) : State :=
  { served with inputs := { served.inputs with
      handle := Four.all { raw := true, since := 0, value := false, first }
      rocker := ⟨{ raw := .lock, since := 0, value := .neutral, first },
                 { raw := .lock, since := 0, value := .neutral, first }⟩
      childButton := { raw := true, since := 0, value := false, first }
      tailgateButton := { raw := true, since := 0, value := false, first }
      childSwitch := ⟨{ raw := true, since := 0, value := false, first },
                      { raw := true, since := 0, value := false, first }⟩
      passenger := { pos := { raw := .closing, since := 0, value := .neutral, first }, delivered := .neutral }
      rearDoor := ⟨{ pos := { raw := .neutral, since := 0, value := .closing, first }, delivered := .closing },
                   { pos := { raw := .neutral, since := 0, value := .closing, first }, delivered := .closing }⟩ } }

theorem test_meets_ControlsAreQualifiedAndDelivered :
    (∀ b, (controls b).power = .running ∧ due true ((controls b).inputs.handle.get .fl) = true ∧
      ((controls b).inputs.handle.get .fl).first = b ∧ ((controls b).inputs.handle.get .fl).raw = true ∧
      due true ((controls b).inputs.rocker.get .fl) = true ∧ ((controls b).inputs.rocker.get .fl).first = b ∧
      ((controls b).inputs.rocker.get .fl).raw ≠ .neutral ∧ due true (controls b).inputs.childButton = true ∧
      (controls b).inputs.childButton.first = b ∧ due true (controls b).inputs.tailgateButton = true ∧
      (controls b).inputs.tailgateButton.first = b ∧ due true ((controls b).inputs.childSwitch.get .rl) = true ∧
      (switchAt (controls b).inputs .passenger).pos.raw ≠ (switchAt (controls b).inputs .passenger).pos.value ∧
      (switchAt (controls b).inputs .passenger).pos.raw ≠ .neutral ∧ gateOpen (controls b) = false ∧
      (switchAt (controls b).inputs (.rearDoor .rl)).pos.raw = .neutral ∧
      (switchAt (controls b).inputs (.rearDoor .rl)).pos.raw ≠
        (switchAt (controls b).inputs (.rearDoor .rl)).pos.value) ∧
    gateOpen { served with vehicle := { served.vehicle with powerMode := .run } } = true ∧
    due true ((controls true).inputs.handle.set .fl (Qual.fresh false |> qualified) |>.get .fl) = false := by
  decide

/-- That part with RL's latch sensed as given and its channel toward a target, by a drive or a held request. -/
def pulling (q : LatchState) (t : Option HeldTarget) (isHeld : Bool) : State :=
  setLatch .rl { LatchUnit.reset with
    sensed := q
    drive := if isHeld then none else t.map fun x => drive x .link
    held := if isHeld then t.map fun x => { target := x, requester := .link, tags := [] } else none } standing

/-- That part with both rear child locks meant as given. -/
def childLocks (l r : Bool) : State :=
  setChild .rl { target := l, sensed := l, jam := false } (setChild .rr { target := r, sensed := r, jam := false } standing)

theorem test_meets_ControlsAreQualifiedAndDelivered_requests :
    mayTake served (.pull .rl) = true ∧ mayTake State.reset (.pull .rl) = false ∧
      (latchAt (pulling .deadlocked none false) .rl).sensed = .deadlocked ∧
      (latchAt (pulling .invalid none false) .rl).sensed = .invalid ∧ childLocked (childLocks true false) .rl = true ∧
      childLocked (pulling .locked none false) .rl = false ∧
      latchGoes (latchAt (pulling .locked none false) .rl) (· = .unlocked) = false ∧
      latchGoes (latchAt (pulling .locked (some .unlocked) true) .rl) (· = .unlocked) = true ∧
      latchGoes (latchAt (pulling .unlocked (some .locked) false) .rl) (· ≠ .unlocked) = true ∧
      latchGoes (latchAt (pulling .unlocked none false) .rl) (· ≠ .unlocked) = false ∧
      latchGoes (latchAt (pulling .unlocked (some .on) true) .rl) (· ≠ .unlocked) = false ∧
      ((childAt (childLocks true true) .rl).target = true ∧ (childAt (childLocks true true) .rr).target = true) ∧
      (childAt (childLocks true false) .rr).target = false ∧ (childAt (childLocks false true) .rl).target = false := by
  decide

theorem test_meets_ControlsAreQualifiedAndDelivered_tailgate :
    pairQualified State.reset .tg = false ∧ pairQualified served .tg = true ∧
      (latchAt (setLatch .tg { LatchUnit.reset with sensed := .locked } served) .tg).sensed = .locked ∧
      (latchAt served .tg).sensed ≠ .locked ∧ State.reset.power = .running ∧
      (State.reset.inputs.pair.get .tg).first = false := by decide

/-- A part whose TG pair first qualifies with a chain's LOCK and then a press among its deferred requests. -/
def pressed : State :=
  let s := { served with latches := { served.latches with
    deferred := [.chain .tg .locked .fobLock ⟨0, 1, false⟩, .release, .pull .rl] } }
  { s with inputs := { s.inputs with pair := s.inputs.pair.set .tg (Qual.fresh ⟨false, false⟩) } }

theorem test_meets_ControlsAreQualifiedAndDelivered_presses :
    .release ∈ pressed.latches.deferred ∧ .release ∉ served.latches.deferred ∧
      pairQualified pressed .tg = false ∧ (latchAt pressed .tg).sensed ≠ .locked ∧
      (latchAt (setLatch .tg { LatchUnit.reset with sensed := .locked } pressed) .tg).sensed = .locked := by decide

/-- A press that waited for TG's pair keeps its place behind a chain's request deferred before it. -/
theorem test_presses_keep_their_place :
    (routeWaiting pressed).latches.deferred = pressed.latches.deferred ∧
      (routeWaiting (setLatch .tg { LatchUnit.reset with sensed := .locked } pressed)).latches.deferred =
        [.chain .tg .locked .fobLock ⟨0, 1, false⟩, .pull .rl] := by decide

/-- A movement of FL's window in a mode, asked for by a requester. -/
def asked (dir : Direction) (mode : MoveMode) (r : Requester) : Motion := freshMotion (plainMove dir mode r [])

/-- That part with FL's window in a phase, a motion and a follow-on. -/
def driven (w : Window) (ph : Phase) (m : Option Motion) (f : Option Movement) : Window :=
  { w with phase := ph, motion := m, followOn := f }

theorem test_meets_ControlsAreQualifiedAndDelivered_switches :
    let held := plainMove .closing .held .driverPack []
    let auto := plainMove .closing .toEnd .link []
    childLocked (childLocks true false) .rl = true ∧
      reversing (driven (normal 5) .running (some (asked .opening .reversal .pinch)) none) = true ∧
      reversing (driven (normal 5) .running (some (freshMotion held)) none) = false ∧
      reversing (driven (normal 5) .coasting (some (freshMotion auto)) (some held)) = false ∧
      inProgress (driven (normal 5) .running (some (freshMotion held)) none) = true ∧
      inProgress (driven (normal 5) .coasting none (some held)) = false ∧
      switchRequester false = .driverPack ∧ held.mode = .held ∧ auto.mode = .toEnd ∧ held.dir = .closing ∧
      consumed { normal 5 with consumedPack := true } false = true ∧ consumed (normal 5) true = false ∧
      (switchDirection .closing = some .closing ∧ switchDirection .closeAuto = some .closing ∧
        switchDirection .neutral ≠ some .closing ∧ switchDirection .opening ≠ some .closing) ∧
      (isAuto .closeAuto = true ∧ isAuto .closing = false) ∧
      (moveDenial false (normal 5) .closing .toEnd = none ∧ moveDenial false (normal 5) .closing .held = none) ∧
      (moveDenial true (normal 5) .closing .toEnd = some .crashHold ∧
        moveDenial true (normal 5) .closing .held ≠ none) ∧
      (moveDenial false Window.reset .closing .toEnd = some .unnormalized ∧
        moveDenial false Window.reset .closing .held = none) := by decide

theorem test_meets_CrashReleasesEveryLatch :
    ∀ a, crashUnlocks (latchAt (withLatch .fl { LatchUnit.reset with drive := some (drive .unlocked .crash) }) a) := by
  intro a
  cases a
  case fl => exact ⟨fun d h _ => by cases h; rfl, nofun⟩
  all_goals exact ⟨nofun, nofun⟩

/-- The crash line asserted while READY. -/
def crashing (s : State) : State :=
  { s with inputs := { s.inputs with crashLine := { asserted := true, since := 0, ready := true } } }

theorem test_meets_CrashLineGivesACrashEvent :
    (crashing served).power = .running ∧ (crashing served).inputs.crashLine.ready = true ∧
      (crashing served).inputs.crashLine.asserted = true ∧ (crashing State.reset).store.scanDone = false :=
  ⟨rfl, rfl, rfl, rfl⟩

theorem test_meets_CrashLineGivesACrashEvent_latches :
    let held : Held := { target := .on, requester := .chain .fobLock, tags := [⟨0, 1, false⟩] }
    let busy := fun d h => setLatch .rl { LatchUnit.reset with drive := d, held := h } standing
    (served.store.scanDone = true ∧ served.latches.crashHold = false) ∧
      { served with latches := { served.latches with crashHold := true } }.latches.crashHold = true ∧
      (State.reset.store.scanDone = false ∧ State.reset.latches.crashPending = false) ∧
      { State.reset with latches := { Latches.reset with crashPending := true } }.latches.crashPending = true ∧
      (∀ d h, (latchAt (busy d h) .rl).drive = d ∧ (latchAt (busy d h) .rl).held = h) ∧
      actuatorOf held.target = .child ∧ (drive .on .link).requester ≠ .crash ∧
      (actuatorOf (drive .on .link).target = .child ∧ actuatorOf (drive .unlocked .crash).target ≠ .child) ∧
      (pairQualified standing .rl = true ∧ (latchAt (busy none none) .rl).sensed = .unlocked) ∧
      pairQualified State.reset .rl = false :=
  ⟨⟨rfl, rfl⟩, rfl, ⟨rfl, rfl⟩, rfl, fun _ _ => ⟨rfl, rfl⟩, rfl, nofun, ⟨rfl, nofun⟩, ⟨rfl, rfl⟩, rfl⟩

theorem test_meets_CrashLineGivesACrashEvent_deassertion :
    let line := fun ready asserted => { served with inputs := { served.inputs with
      crashLine := { asserted, since := 0, ready } } }
    (∀ r b, (line r b).power = .running ∧ (line r b).inputs.crashLine.ready = r ∧
      (line r b).inputs.crashLine.asserted = b) ∧
    exec (.qualificationTimeExpiry .crashLine) (line false false) =
      .next { line true false with now := 2000 } :=
  ⟨fun _ _ => ⟨rfl, rfl, rfl⟩, rfl⟩

/-- That part with the crash hold in force. -/
def crashed : State := { standing with latches := { standing.latches with crashHold := true } }

theorem test_meets_ClearCrashNeedsAStandstill :
    Serving served ∧ speedZero (taken 0 served) = false ∧ speedZero (taken 0 standing) = true ∧
      standing.latches.crashHold = false ∧ speedZero (taken 0 crashed) = true ∧ crashed.latches.crashHold = true :=
  ⟨serving, rfl, rfl, rfl, rfl, rfl⟩

theorem test_meets_CrashHoldIsKept :
    crashInvariant crashed ∧ (∃ t, step crashed = .next t) ∧ crashed.latches.crashHold = true := by
  have u : ∀ a, (latchAt crashed a).drive = none ∧ (latchAt crashed a).held = none :=
    fun a => by cases a <;> exact ⟨rfl, rfl⟩
  have w : ∀ d, (windowAt crashed d).motion = none ∧ (windowAt crashed d).followOn = none :=
    fun d => by cases d <;> exact ⟨rfl, rfl⟩
  have no : ∀ {α : Type} {o : Option α} {x : α} {p : Prop}, o = none → o = some x → p :=
    fun h k => nomatch h.symm.trans k
  exact ⟨And.intro (fun _ => rfl) ⟨fun a => ⟨fun _ h => no (u a).1 h, fun _ h => no (u a).2 h⟩,
    fun d => ⟨fun _ h => no (w d).1 h, fun _ h => no (w d).2 h⟩,
    fun _ => ⟨fun a _ h => no (u a).1 h, fun d _ _ h => no (w d).1 h⟩⟩, ⟨_, rfl⟩, rfl⟩

/-! Keys and entry -/

theorem test_meets_KeyChangesAreMadeAndWritten :
    Serving keyed ∧ (KeyChange.role .family).sound ∧ (KeyChange.enroll 9 0 .valet 0 master.profile).sound ∧
      (keyAt keyed 0).marker = .none ∧ keyCheck keyed 0 (.profile KeyStored.empty.profile) = none ∧
      nothingToChange (keyAt keyed 0) (.profile KeyStored.empty.profile) = false ∧
      keyCheck keyed 7 (.enroll 9 0 .valet 0 master.profile) = none ∧
      nothingToChange (keyAt keyed 7) (.enroll 9 0 .valet 0 master.profile) = false ∧
      keyCheck keyed 0 (.role .family) = some .lastMaster ∧ keyCheck keyed 0 .resume = none ∧
      nothingToChange (keyAt keyed 0) .resume = true ∧
      (keyAt (setKey 0 { keyAt keyed 0 with marker := .linkChange } keyed) 0).marker ≠ .none := by
  refine ⟨⟨⟨rfl, nofun⟩, rfl⟩, nofun, nofun, by decide, by decide, by decide, by decide, by decide, by decide,
    by decide, by decide, by decide⟩

theorem test_meets_KeyChangesAreMadeAndWritten_checks :
    let shut := { keyed with keys := { keyed.keys with window := none } }
    let damaged := setKey 7 (KeyRecord.load KeyStored.damaged) keyed
    let two := setKey 7 (KeyRecord.load { master with identity := some 9 }) keyed
    let enroll := fun n r => KeyChange.enroll n 0 r 0 master.profile
    (keyCheck shut 7 (enroll 9 .valet) = some .noWindow ∧ keyCheck served 7 (enroll 9 .master) = none ∧
      keyCheck keyed 0 (enroll 9 .valet) = some .slotBusy ∧ keyCheck damaged 7 (enroll 9 .valet) = some .slotBusy ∧
      keyCheck keyed 7 (enroll 7 .valet) = some .duplicateId ∧ keyCheck keyed 7 (enroll 9 .valet) = none) ∧
    (keyCheck shut 7 (.profile master.profile) = some .notFound ∧
      keyCheck damaged 7 (.profile master.profile) = some (.refused .damaged) ∧
      keyCheck shut 0 (.profile master.profile) = none) ∧
    (keyCheck shut 7 (.role .family) = some .notFound ∧ keyCheck damaged 7 .suspend = some (.refused .damaged) ∧
      keyCheck shut 0 .resume = some .noWindow ∧ keyCheck keyed 0 .suspend = some .lastMaster ∧
      keyCheck two 0 .suspend = none ∧ keyCheck keyed 0 .resume = none) ∧
    (keyCheck shut 7 .revoke = some .notFound ∧ keyCheck damaged 7 .revoke = none ∧
      keyCheck shut 0 .revoke = some .noWindow ∧ keyCheck keyed 0 .revoke = some .lastMaster ∧
      keyCheck two 7 .revoke = none) := by
  decide

theorem test_meets_TheLastMasterStays :
    1 ≤ masterCount keyed.keys.recs ∧ (∃ t, exec (keyCommand 0 .suspend) keyed = .next t) ∧
      (∃ t, exec .storeWriteComplete keyed = .next t) ∧ mayReset .storeWriteComplete = false ∧
      mayReset (.read 3) = true ∧ keyed.sup.pendingReset = false ∧ ∃ t, exec (.read 3) keyed = .next t :=
  ⟨by decide, ⟨_, rfl⟩, ⟨_, rfl⟩, rfl, rfl, rfl, _, rfl⟩

/-- A frame of the MASTER key with a counter, its check correct. -/
def frame (n : BitVec 24) : StampedFrame :=
  { frame := { identity := 7, counter := n, command := .lock, batteryLow := false,
               check := Config.frameCheck 0 7 n (BitVec.ofNat 3 (fobCommandCode .lock)) }, arrival := 0 }

theorem test_meets_CountersAreJudgedByTheirDifference (n : BitVec 24) :
    (KeyRecord.load master).stored.state = .active ∧
      Config.frameCheck (KeyRecord.load master).stored.secret (frame n).frame.identity (frame n).frame.counter
        (BitVec.ofNat 3 (fobCommandCode (frame n).frame.command)) = (frame n).frame.check ∧
      ((frame n).frame.counter.toNat + 16777216 - (KeyRecord.load master).stored.counter.toNat) % 16777216 = n.toNat :=
  ⟨rfl, rfl, by
    show (n.toNat + 16777216 - 0) % 16777216 = n.toNat
    have := n.isLt
    omega⟩

theorem test_counter_classes_at_their_edges :
    counterClass 0 0 = .stale ∧ counterClass 1 0 = .inWindow ∧ counterClass 64 0 = .inWindow ∧
      counterClass 65 0 = .resync ∧ counterClass 16384 0 = .resync ∧ counterClass 16385 0 = .far ∧
      counterClass 8388607 0 = .far ∧ counterClass 8388608 0 = .stale ∧ counterClass 16777215 0 = .stale ∧
      counterClass 3 16777200 = .inWindow := by decide

/-- The keyed part with a frame at the head of the receive queue. -/
def heardFrame (f : StampedFrame) : State := { keyed with entry := { keyed.entry with rfQueue := [f] } }

theorem test_meets_FramesAreTakenAndJudged (n : BitVec 24) :
    (heardFrame (frame n)).power = .running ∧ (heardFrame (frame n)).store.scanDone = true ∧
      (heardFrame (frame n)).entry.processing = none ∧ (heardFrame (frame n)).entry.rfQueue = [frame n] ∧
      findIdentity (heardFrame (frame n)) 7 = some 0 ∧ findIdentity (heardFrame (frame n)) 6 = none ∧
      (keyAt (heardFrame (frame n)) 0).marker ≠ .linkChange ∧
      verdict (keyAt (heardFrame (frame 1)) 0) (frame 1) = .accept ∧
      verdict (keyAt (heardFrame (frame 0)) 0) (frame 0) = .reject .stale ∧
      (keyAt (setKey 0 { keyAt keyed 0 with marker := .linkChange } keyed) 0).marker = .linkChange := by
  refine ⟨rfl, rfl, rfl, rfl, rfl, rfl, nofun, ?_, ?_, rfl⟩
  all_goals
    unfold verdict
    rw [if_neg (by decide), if_neg (fun h => h rfl)]
    rfl

theorem test_meets_FramesAreTakenAndJudged_verdicts (f : StampedFrame) :
    let k := fun st => KeyRecord.load { master with state := st }
    let pending := fun tp => { KeyRecord.load master with resync := some (64, tp) }
    let late := fun n at' => { frame n with arrival := at' }
    let c := Config.frameCheck 0 7 1 (BitVec.ofNat 3 (fobCommandCode .lock))
    ((k .suspended).stored.state = .suspended ∧ verdict (k .suspended) f = .reject .suspended) ∧
      ((k .active).stored.state = .active ∧ c ≠ c + 1) ∧
      resyncConfirmed (pending 0) (late 65 3000000) = true ∧ resyncConfirmed (pending 0) (late 65 3000001) = false ∧
      resyncConfirmed (pending 0) (late 66 0) = false ∧ resyncConfirmed (pending 0) (late 64 0) = false ∧
      resyncConfirmed (KeyRecord.load master) (frame 65) = false := by
  refine ⟨⟨rfl, rfl⟩, ⟨rfl, fun h => ?_⟩, by decide, by decide, by decide, by decide, by decide⟩
  have n : ∀ x : BitVec 32, x ≠ x + 1 := fun x => by
    intro e
    have := congrArg BitVec.toNat e
    rw [BitVec.toNat_add, show (1 : BitVec 32).toNat = 1 from rfl] at this
    have := x.isLt
    omega
  exact n _ h

/-- A search in flight. -/
def search (p : Purpose) (z : Zone) (isOpen : Bool) : Search :=
  { zone := z, purpose := p, challenge := 0, start := 0, windowOpen := isOpen,
    candidates := [{ slot := 0, identity := 7, secret := 0, role := .master, profile := master.profile }],
    found := [0], waiters := [.run .fobLock 0] }

/-- The keyed part with a search in flight. -/
def searching (x : Search) : State := { keyed with entry := { keyed.entry with search := some x } }

theorem test_meets_BurstsAreSorted :
    readBurst [] = .malformed ∧
      readBurst [1, 0, 0, 0, 7, 0, 0, 9, 0, 0, 0, 0, 0] =
        .command { identity := 7, counter := 9, command := .lock, batteryLow := false, check := 0 } ∧
      readBurst [2, 0, 0, 0, 7, 0, 0, 0, 1] = .response 7 1 ∧ served.entry.rfQueue.length < 2 ∧
      2 ≤ { served with entry := { served.entry with rfQueue := [frame 1, frame 2] } }.entry.rfQueue.length ∧
      (∀ x, (searching (search .enroll .interior true)).entry.search = some x → x.windowOpen = true) ∧
      (∀ x, (searching (search .enroll .interior false)).entry.search = some x → x.windowOpen = false) ∧
      ∀ x, served.entry.search = some x → x.windowOpen = false := by
  refine ⟨by decide, by decide, by decide, by decide, Nat.le_refl 2, fun x h => ?_, fun x h => ?_, nofun⟩
  · cases h; rfl
  · cases h; rfl

theorem test_meets_SearchesStartAndOpenTheirWindow :
    Serving served ∧ served.entry.search = none ∧ served.entry.queue = [] ∧
      (∃ q rest, { served with entry := { served.entry with
        queue := [{ zone := .interior, purpose := .enroll, waiters := [.link] }] } }.entry.queue = q :: rest) ∧
      (searching (search .enroll .interior false)).entry.search = some (search .enroll .interior false) ∧
      (search .enroll .interior false).windowOpen = false ∧ keyed.keys.window = some { expiry := 30000000, slot := 0 } ∧
      ((search .enroll .interior false).zone = .interior ∧ (search .enroll .interior false).purpose = .enroll) ∧
      ¬((search .insideCheck .interior false).zone = .interior ∧
        (search .insideCheck .interior false).purpose = .enroll) ∧
      (∀ q ∈ served.entry.queue, ¬(q.zone = .interior ∧ q.purpose = .enroll)) :=
  ⟨serving, rfl, rfl, ⟨_, _, rfl⟩, rfl, rfl, rfl, ⟨rfl, rfl⟩, by decide, nofun⟩

theorem test_meets_SearchesDeliverTheirResult :
    (∀ p z, (searching (search p z true)).power = .running ∧
      (searching (search p z true)).entry.search = some (search p z true) ∧ (search p z true).windowOpen = true) ∧
    (0 ∈ (search .enroll .interior true).found ∧
      activeMaster (keyAt (searching (search .enroll .interior true)) 0).stored = true) ∧
    (∀ i : Fin 8, i ∈ (search .enroll .interior true).found → activeMaster (keyAt served i).stored = false) ∧
    passiveOf .unlockTouch = some (.passiveUnlock, .unlockTouch) ∧
    (search .unlockTouch .left true).candidates = [] ++
      { slot := 0, identity := 7, secret := 0, role := .master, profile := master.profile } :: [] ∧
    (∀ k ∈ { search .unlockTouch .left true with found := [] }.candidates, k.slot ∉ ([] : List (Fin 8))) ∧
    runAt (withRun { run .active 2 with searchWait := true }) .fobLock = some { run .active 2 with searchWait := true } ∧
    SearchWaiter.run .fobLock 0 ∈ (search .insideCheck .interior true).waiters := by
  refine ⟨fun p z => ⟨rfl, rfl, rfl⟩, by decide, ?_, rfl, rfl, nofun, by decide, by decide⟩
  intro i _
  revert i
  decide

/-! Latches -/

theorem standing_serves : Serving standing := ⟨⟨rfl, nofun⟩, rfl⟩
theorem standing_settled : Settled standing := ⟨rfl, rfl⟩

theorem test_meets_LatchRequestsDriveOrAreRefused :
    Serving standing ∧ Settled standing ∧ apertureOf 0 = some .fl ∧ apertureOf 4 = some .tg ∧ apertureOf 5 = none ∧
      hostUnqualified standing .fl .locked = false ∧ denial (taken 3 standing) .fl .locked = none ∧
      (latchAt standing .fl).drive = none ∧ (latchAt standing .fl).held = none ∧
      sensedMeets standing .fl .locked = false ∧ sensedMeets standing .fl .unlocked = true ∧
      300 ≤ creditOf (latchAt standing .fl) standing.now ∧ standing.vehicle.supplyHold = true ∧
      creditOf { LatchUnit.reset with credit := 299 } 0 < 300 ∧
      hostUnqualified State.reset .fl .locked = true ∧ denial (taken 3 crashed) .fl .locked = some .crashHold ∧
      lowered standing .tg .deadlocked = .locked ∧ lowered standing .fl .deadlocked = .deadlocked := by
  refine ⟨standing_serves, standing_settled, ?_⟩
  decide

theorem test_meets_LatchRequestsDriveOrAreRefused_meeting :
    let held : Held := { target := .on, requester := .chain .fobLock, tags := [⟨0, 1, false⟩] }
    let busy := fun d h n => withLatch .rl { LatchUnit.reset with drive := d, held := h, credit := n }
    (∀ d h n, (latchAt (busy d h n) .rl).drive = d ∧ (latchAt (busy d h n) .rl).held = h ∧
      (latchAt (busy d h n) .rl).credit = n ∧ (latchAt (busy d h n) .rl).sensed ≠ .invalid) ∧
    ((drive .locked .link).target = .locked ∧ (drive .locked .link).requester = .link) ∧
    ((drive .unlocked .crash).target = .unlocked ∧ (drive .unlocked .crash).requester = .crash ∧
      Requester.link ≠ .crash) ∧
    (held.target = .on ∧ held.requester = .chain .fobLock) ∧
    (actuatorOf .locked = actuatorOf .deadlocked ∧ actuatorOf .locked ≠ actuatorOf .on ∧
      actuatorOf .on = .child ∧ actuatorOf .locked = .latch ∧ HeldTarget.locked ≠ .release) ∧
    (sensedMeets standing .rl .unlocked = true ∧ sensedMeets standing .rl .locked = false ∧
      sensedMeets standing .rl .off = true ∧ sensedMeets standing .rl .on = false) ∧
    (apertureRear .rl = some .rl ∧ standing.vehicle.supplyHold = true) ∧
    (min 3000 (300 - (299999 - 0) / 1000) = 1 ∧ min 3000 (600 - (300000 - 0) / 1000) = 300) := by
  refine ⟨fun d h n => ⟨rfl, rfl, rfl, nofun⟩, ?_⟩
  decide

/-- That part with the supply hold ended. -/
def supplied : State := { standing with vehicle := { standing.vehicle with supplyHold := false, supply := 13500 } }

theorem test_meets_TailgateReleasesPulse :
    Serving supplied ∧ Settled supplied ∧ apertureOf 4 = some .tg ∧ pairQualified supplied .tg = true ∧
      supplied.latches.pulse = none ∧ supplied.latches.interval = none ∧ (latchAt supplied .tg).sensed = .unlocked ∧
      (latchAt supplied .tg).target = .unlocked ∧ (latchAt supplied .tg).held = none ∧
      speedZero (taken 3 supplied) = true ∧ supplied.vehicle.supplyHold = false ∧
      (∃ p, { supplied with latches := { supplied.latches with
        pulse := some { ending := 200000, requester := .chain .fobTailgate, tags := [⟨0, 1, false⟩] } } }.latches.pulse =
          some p) ∧
      { supplied with latches := { supplied.latches with interval := some 5 } }.latches.interval = some 5 := by
  refine ⟨⟨⟨rfl, nofun⟩, rfl⟩, ⟨rfl, rfl⟩, by decide, by decide, rfl, rfl, rfl, rfl, rfl, by decide, rfl, ⟨_, rfl⟩, rfl⟩

/-- TG's Latch Unit of a part with the supply hold as given, with a held request. -/
def releasing (t : HeldTarget) (r : Requester) (hold : Bool) : State :=
  setLatch .tg { LatchUnit.reset with held := some { target := t, requester := r, tags := [⟨0, 1, false⟩] } }
    { supplied with vehicle := { supplied.vehicle with supplyHold := hold } }

theorem test_meets_TailgateReleasesPulse_refused_and_held :
    let fast := { supplied with vehicle := { supplied.vehicle with speed := 1, powerMode := .run } }
    (latchAt (setLatch .tg { LatchUnit.reset with sensed := .locked } supplied) .tg).sensed ≠ .unlocked ∧
      (latchAt (setLatch .tg { LatchUnit.reset with target := .locked } supplied) .tg).target ≠ .unlocked ∧
      (speedZero (taken 3 fast) = false ∧ fast.vehicle.powerMode ≠ .off) ∧
      (speedZero (taken 3 served) = false ∧ served.vehicle.powerMode = .off) ∧
      (∀ t r b, Settled (releasing t r b) ∧ pairQualified (releasing t r b) .tg = true ∧
        (releasing t r b).vehicle.supplyHold = b ∧ (latchAt (releasing t r b) .tg).sensed = .unlocked ∧
        (latchAt (releasing t r b) .tg).held = some { target := t, requester := r, tags := [⟨0, 1, false⟩] }) ∧
      (supplied.latches.pulse = none ∧ (latchAt standing .tg).held = none ∧ standing.vehicle.supplyHold = true) ∧
      HeldTarget.locked ≠ .release ∧ Requester.chain .fobTailgate ≠ .link := by
  refine ⟨by decide, by decide, by decide, by decide, fun t r b => ⟨⟨rfl, rfl⟩, ?_, rfl, rfl, rfl⟩, by decide, nofun,
    nofun⟩
  rfl

/-- A held request at FL of a part with or without the supply hold. -/
def holding (t : HeldTarget) (hold : Bool) : State :=
  setLatch .fl { LatchUnit.reset with held := some { target := t, requester := .link, tags := [] } }
    { supplied with vehicle := { supplied.vehicle with supplyHold := hold } }

theorem test_meets_WaitingLatchRequestsStart :
    (∀ t b, (holding t b).power = .running ∧ Settled (holding t b) ∧
      (latchAt (holding t b) .fl).held = some { target := t, requester := .link, tags := [] } ∧
      (latchAt (holding t b) .fl).drive = none ∧ (holding t b).vehicle.supplyHold = b) ∧
    denial (setLatch .fl { latchAt (holding .locked false) .fl with held := none }
      (clockTo (creditReady (latchAt (holding .locked false) .fl)) (holding .locked false))) .fl .locked = none ∧
    sensedMeets (holding .locked false) .fl .locked = false ∧
    lowered (holding .locked false) .fl .locked = .locked ∧
    denial (holding .on false) .fl .on = some .notFitted ∧
    mayTake served (.pull .fl) = true ∧ mayTake State.reset (.pull .fl) = false ∧ served.latches.deferred = [] := by
  refine ⟨fun t b => ⟨rfl, ⟨rfl, rfl⟩, rfl, rfl, rfl⟩, ?_⟩
  decide

theorem test_meets_WaitingLatchRequestsStart_lowered_and_deferred :
    let s := holding .deadlocked false
    let open' := { s with inputs := { s.inputs with
      ajar := s.inputs.ajar.set .rl { raw := true, since := 0, value := true, first := true } } }
    let waiting := { State.reset with
      store := served.store
      inputs := { served.inputs with pair := State.reset.inputs.pair.set .rl (served.inputs.pair.get .rl) }
      latches := { served.latches with deferred := [.pull .fl, .pull .rl, .rocker .fl true] } }
    (denial s .fl .deadlocked = none ∧ allClosed s = true ∧ sensedMeets s .fl .deadlocked = false) ∧
      (denial open' .fl .deadlocked = none ∧ allClosed open' = false ∧ (latchAt open' .fl).sensed ≠ .locked) ∧
      (latchAt (setLatch .fl { latchAt s .fl with sensed := .locked } s) .fl).sensed = .locked ∧
      sensedMeets (holding .unlocked false) .fl .unlocked = true ∧
      (latchAt (setLatch .fl { latchAt s .fl with drive := some (drive .locked .link) } s) .fl).drive ≠ none ∧
      waiting.latches.deferred = [.pull .fl] ++ .pull .rl :: [.rocker .fl true] ∧
      (mayTake waiting (.pull .fl) = false ∧ mayTake waiting (.pull .rl) = true) ∧
      ∀ y ∈ ([.pull .fl, .rocker .fl true] : List Deferred), mayTake waiting y = false := by decide

theorem test_meets_DrivesJamAtTheirLimitAndRestRefills :
    (latchAt (withLatch .fl { LatchUnit.reset with drive := some (drive .locked (.chain .fobLock)) }) .fl).drive =
      some (drive .locked (.chain .fobLock)) ∧
    (latchAt (withLatch .rl { LatchUnit.reset with drive := some (drive .on .link) }) .rl).drive =
      some (drive .on .link) ∧
    actuatorOf .locked ≠ .child ∧ actuatorOf .on = .child ∧ apertureRear .rl = some .rl ∧
    LatchUnit.reset.drive = none ∧ creditOf { LatchUnit.reset with credit := 2998 } 9999 = 2998 ∧
    creditOf { LatchUnit.reset with credit := 2998 } 10000 = 2999 ∧
    creditOf { LatchUnit.reset with credit := 2998 } 30000 = 3000 := by
  refine ⟨rfl, rfl, nofun, rfl, rfl, rfl, by decide, by decide, by decide⟩

/-! Windows -/

theorem test_meets_WindowRequestsMoveOrAreRefused :
    let s := withWindow (normal 500)
    Serving s ∧ Settled s ∧ apertureOf 0 = some .fl ∧ apertureDoor .fl = some .fl ∧ (windowAt s .fl).phase = .idle ∧
      (windowAt s .fl).followOn = none ∧ (∀ dir, moveDenial false (windowAt s .fl) dir .toEnd = none) ∧
      (100 : Byte).toNat ≤ 100 ∧ 100 < (101 : Byte).toNat ∧ (windowAt s .fl).record.travel = some 1000 ∧
      moveDenial false (windowAt s .fl) .opening .toPosition = none ∧
      atTarget (windowAt s .fl) (positionMove (windowAt s .fl) (100 * 1000 / 100) .link []) = false ∧
      atTarget (windowAt s .fl) (positionMove (windowAt s .fl) (50 * 1000 / 100) .link []) = true ∧
      apertureOf 4 = some .tg ∧ apertureOf 5 = none := by
  refine ⟨⟨⟨rfl, nofun⟩, rfl⟩, ⟨rfl, rfl⟩, by decide, rfl, rfl, rfl, fun dir => by cases dir <;> decide, by decide,
    by decide, rfl, by decide, by decide, by decide, by decide, by decide⟩

theorem test_meets_WindowRequestsMoveOrAreRefused_in_motion :
    (∀ ph, let s := moving (normal 500) ph (motion .closing .toEnd 3)
      Serving s ∧ (windowAt s .fl).phase = ph ∧ (windowAt s .fl).motion = some (motion .closing .toEnd 3) ∧
        reversing (windowAt s .fl) = false ∧ ∀ dir, moveDenial false (windowAt s .fl) dir .toEnd = none) ∧
    reversing (windowAt (moving (normal 500) .running (motion .opening .reversal 3)) .fl) = true ∧
    (reversing Window.reset = false ∧ moveDenial false Window.reset .closing .toEnd = some .unnormalized) := by
  refine ⟨fun ph => ⟨⟨⟨rfl, nofun⟩, rfl⟩, rfl, rfl, ?_, fun dir => ?_⟩, by decide, by decide⟩
  · cases ph <;> decide
  · cases dir <;> rfl

theorem test_meets_WindowRequestsMoveOrAreRefused_positions :
    let m := fun w => positionMove w 500 .link []
    (∀ ph, let s := moving (normal 500) ph (motion .closing .toEnd 3)
      Serving s ∧ (windowAt s .fl).phase = ph ∧ (windowAt s .fl).record.travel = some 1000 ∧
        moveDenial false (windowAt s .fl) (m (windowAt s .fl)).dir .toPosition = none) ∧
    (atTarget (normal 500) (m (normal 500)) = true ∧ atTarget (normal 501) (m (normal 501)) = false) ∧
    ((m (normal 501)).dir = .closing ∧ (m (normal 499)).dir = .opening) ∧
    apertureOf 4 = some .tg ∧ apertureDoor .tg = none ∧ Window.reset.record.travel = none ∧
    moveDenial true (normal 501) (m (normal 501)).dir .toPosition = some .crashHold ∧
    moveDenial false Window.reset .opening .toEnd = some .unnormalized := by
  refine ⟨fun ph => ⟨⟨⟨rfl, nofun⟩, rfl⟩, rfl, rfl, ?_⟩, by decide⟩
  rfl

theorem test_meets_AutomaticClosingIsPermittedRarely :
    MoveMode.toEnd ≠ .reversal ∧ moveDenial false (normal 500) .closing .toEnd = none ∧
      moveDenial false Window.reset .closing .held = none ∧
      moveDenial false { normal 500 with pinchCount := 3 } .closing .toEnd = some .pinchLimit := by decide

theorem test_meets_WindowStopSetupAndRelearn :
    let s := withWindow (normal 500)
    let r := moving (normal 500) .running (motion .closing .toEnd 3)
    Serving s ∧ doorOf 0 = some .fl ∧ doorOf 3 = some .rr ∧ (windowAt s .fl).phase = .idle ∧
      (windowAt s .fl).followOn = none ∧ (windowAt s .fl).motion = none ∧ Serving r ∧
      (windowAt r .fl).phase = .running ∧ (windowAt r .fl).motion = some (motion .closing .toEnd 3) ∧
      reversing (windowAt r .fl) = false ∧ (windowAt r .fl).phase ≠ .idle ∧ boolOf 1 = some true ∧
      ((windowAt s .fl).record.level = min 15 (7 : Byte).toNat ∧ (windowAt s .fl).record.autoClose = true) ∧
      ¬((windowAt s .fl).record.level = min 15 (255 : Byte).toNat ∧ (windowAt s .fl).record.autoClose = true) := by
  refine ⟨⟨⟨rfl, nofun⟩, rfl⟩, by decide, by decide, rfl, rfl, rfl, ⟨⟨rfl, nofun⟩, rfl⟩, rfl, rfl, by decide, nofun,
    by decide, by decide, by decide⟩

theorem test_meets_WindowStopSetupAndRelearn_marking_and_coasting :
    let m := plainMove .closing .toEnd (.chain .fobCloseAll) [⟨0, 1, false⟩]
    let s := fun ph f => withWindow (driven (normal 500) ph (some (freshMotion m)) f)
    (∀ ph f, Serving (s ph f) ∧ (windowAt (s ph f) .fl).phase = ph ∧
      (windowAt (s ph f) .fl).motion = some (freshMotion m) ∧ (windowAt (s ph f) .fl).followOn = f) ∧
      reversing (windowAt (s .marking none) .fl) = false ∧ reversing (windowAt (s .coasting (some m)) .fl) = false ∧
      m.requester = .chain .fobCloseAll ∧ ⟨0, 1, false⟩ ∈ m.tags := by
  refine ⟨fun ph f => ⟨⟨⟨rfl, nofun⟩, rfl⟩, rfl, rfl, rfl⟩, by decide, by decide, rfl, .head _⟩

/-- A part with the supply hold ended whose FL window waits in MARKING. -/
def marking (w : Window) (m : Movement) : State :=
  setWindow .fl { w with phase := .marking, motion := some (freshMotion m) } supplied

/-- A part whose FL window coasts toward a follow-on. -/
def coasting (w : Window) (m : Option Movement) (s : State) : State :=
  setWindow .fl { w with phase := .coasting, coastEnd := 40000, followOn := m, pendingSetup := some (3, false),
                         pendingRelearn := true } s

theorem test_meets_MotorsStartAndCoastsEnd :
    let m := plainMove .opening .toEnd .link []
    let p := { positionMove (normal 500) 500 .link [] with fixed := false }
    (∀ w x, (marking w x).power = .running ∧ Settled (marking w x) ∧ (windowAt (marking w x) .fl).phase = .marking ∧
      (windowAt (marking w x) .fl).motion = some (freshMotion x)) ∧
    startHeldBack (marking (normal 500) m) .fl = false ∧
    startHeldBack (marking { normal 500 with record := { (normal 500).record with valid := true } } m) .fl = true ∧
    moveDenial false (windowAt (marking (normal 500) m) .fl) .opening .toEnd = none ∧ m.fixed = true ∧
    moveDenial false (windowAt (marking Window.reset m) .fl) .opening .toEnd = some .unnormalized ∧
    (p.fixed = false ∧ atTarget (windowAt (marking (normal 500) p) .fl) p = true ∧
      moveDenial false (windowAt (marking (normal 500) p) .fl) .opening .toPosition = none) ∧
    (∀ x s, (windowAt (coasting (normal 500) x s) .fl).phase = .coasting ∧
      (windowAt (coasting (normal 500) x s) .fl).followOn = x ∧
      (windowAt (coasting (normal 500) x s) .fl).pendingSetup = some (3, false) ∧
      (windowAt (coasting (normal 500) x s) .fl).pendingRelearn = true) ∧
    startHeldBack (coasting (normal 500) (some m) supplied) .fl = false ∧
    startHeldBack (coasting (normal 500) (some m) standing) .fl = true := by
  refine ⟨fun w x => ⟨rfl, ⟨rfl, rfl⟩, rfl, rfl⟩, by decide, by decide, by decide, rfl, by decide, by decide,
    fun x s => ⟨rfl, rfl, rfl, rfl⟩, by decide, by decide⟩

theorem test_meets_MotorsStartAndCoastsEnd_reversals :
    (reversalMove (some 120)).mode = .reversal ∧ (reversalMove (some 120)).amount = some 120 ∧
      (reversalMove none).amount = none ∧ (plainMove .opening .toEnd .link []).mode ≠ .reversal ∧
      (applyPending (normal 500)).known = true ∧ (applyPending Window.reset).known = false := by decide

theorem test_meets_EdgesMoveThePosition :
    let up := motion .closing .toEnd 0
    (∀ w ph m, (moving w ph m).power = .running ∧ Settled (moving w ph m) ∧
      (windowAt (moving w ph m) .fl).motion = some m ∧ (windowAt (moving w ph m) .fl).phase = ph ∧
      (windowAt (moving w ph m) .fl).known = w.known ∧ (windowAt (moving w ph m) .fl).lastEdge = some 0) ∧
    150 ≤ (clockTo (edgeOrigin (windowAt (moving (normal 500) .running up) .fl) up + 150) standing).now - 0 ∧
    (clockTo (edgeOrigin (windowAt (moving (normal 500) .running up) .fl) up + 149) standing).now - 0 < 150 ∧
    edgeLeavesBound (normal 1) .closing = false ∧ edgeLeavesBound (normal 0) .closing = true ∧
    edgeLeavesBound (normal 1023) .opening = false ∧ edgeLeavesBound (normal 1024) .opening = true ∧
    evaluated { normal 5 with phase := .running } { up with pulses := 13 } = false ∧
    evaluated { normal 6 with phase := .running } { up with pulses := 12 } = false ∧
    targetReached (normal 500) up.move = false ∧
    targetReached (normal 500) (positionMove (normal 501) 500 .link []) = true ∧ (normal 500).known = true ∧
    Window.reset.known = false := by
  refine ⟨fun w ph m => ⟨rfl, ⟨rfl, rfl⟩, rfl, rfl, rfl, rfl⟩, ?_⟩
  decide

theorem test_meets_EdgesMoveThePosition_idle_and_coasting :
    let m := { motion .closing .toEnd 0 with stopped := some 5 }
    (windowAt (withWindow (normal 500)) .fl).phase = .idle ∧ (windowAt (withWindow (normal 500)) .fl).motion = none ∧
      Settled (withWindow (normal 500)) ∧ (windowAt (moving (normal 0) .coasting m) .fl).phase = .coasting ∧
      edgeLeavesBound (windowAt (moving (normal 0) .coasting m) .fl) .closing = true ∧
      (windowAt (moving Window.reset .coasting m) .fl).known = false ∧
      edgeOrigin { windowAt (moving (normal 0) .coasting m) .fl with lastEdge := some 7 } m = 7 ∧
      150 ≤ (clockTo (7 + 150) standing).now - 7 ∧ (clockTo (7 + 149) standing).now - 7 < 150 := by
  refine ⟨rfl, rfl, ⟨rfl, rfl⟩, ?_⟩
  decide

theorem test_meets_EvaluatedEdgesScoreAndPinch :
    let m := motion .closing .toEnd 12
    let s := moving (normal 7) .running m
    s.power = .running ∧ Settled s ∧ (windowAt s .fl).phase = .running ∧ (windowAt s .fl).motion = some m ∧
      (windowAt s .fl).known = true ∧ m.move.dir = .closing ∧ (windowAt s .fl).record.travel = some 1000 ∧
      7 ≤ (windowAt s .fl).record.position ∧ 12 ≤ m.pulses ∧
      150 ≤ (clockTo (edgeOrigin (windowAt s .fl) m + 2000) s).now - 0 ∧
      nextScore 0 (excess (some 2000) (normalizedPeriod 2000 13500)) (8 + 4 * 7) < 96 ∧
      96 ≤ nextScore 0 (excess (some 2000) (normalizedPeriod 4000 13500)) (8 + 4 * 7) ∧
      targetReached (normal 6) m.move = false := by
  refine ⟨rfl, ⟨rfl, rfl⟩, rfl, rfl, rfl, rfl, rfl, by decide, by decide, by decide, by decide, by decide, by decide⟩

theorem test_meets_EvaluatedEdgesScoreAndPinch_ends :
    let aimed := fun t => { plainMove .closing .toPosition .link [] with target := some t }
    let other := plainMove .opening .toEnd (.chain .fobLock) [⟨0, 1, false⟩]
    let pinched := fun n p => { normal p with pinchCount := n, followOn := some other }
    targetReached (normal 6) (aimed 6) = true ∧ targetReached (normal 6) (aimed 5) = false ∧
      ((pinched 2 7).pinchCount < 3 ∧ 7 - 1 < 1000 ∧ (pinched 2 7).followOn = some other) ∧
      (3 ≤ (pinched 3 7).pinchCount ∧ 1000 ≤ 1001 - 1 ∧ 7 ≤ (pinched 0 1001).record.position) := by
  decide

theorem test_meets_the_stages :
    (150 ≤ 150 ∧ 150 ≤ 65535) ∧ normalizedPeriod 150 0 = 100 ∧ normalizedPeriod 65535 20000 = 65535 ∧
      16 ≤ 15 + 1 ∧ 200 < 201 ∧ 2000 < 2001 ∧ 2000 ≤ 2000 ∧ (1023 ≤ 1023 ∧ 255 ≤ 255 ∧ 15 ≤ 15) ∧
      8 + 4 * 15 < 69 ∧ 68 ≤ 8 + 4 * 15 := by decide

theorem test_meets_StallsAndFaultsEndMovements :
    (∀ w m, (moving w .running m).power = .running ∧ (windowAt (moving w .running m) .fl).phase = .running ∧
      (windowAt (moving w .running m) .fl).motion = some m ∧
      (windowAt (moving w .running m) .fl).lastEdge = some 0 ∧
      (windowAt (moving w .running m) .fl).record = w.record ∧ (windowAt (moving w .running m) .fl).known = w.known ∧
      (windowAt (moving w .running m) .fl).pinchCount = w.pinchCount) ∧
    (motion .closing .toEnd 1).move.dir = .closing ∧ (motion .opening .toEnd 1).move.dir = .opening ∧
    1 ≤ (motion .closing .toEnd 1).pulses ∧ (motion .opening .toEnd 0).pulses = 0 ∧
    (motion .opening .toEnd 0).started = some 0 ∧
    (13 ≤ (normal 13).record.position ∧ (normal 13).known = true ∧ (normal 13).record.position < 1000) ∧
    (normal 12).record.position ≤ 12 ∧ Window.reset.known = false ∧ (normal 13).pinchCount < 3 ∧
    3 ≤ { normal 13 with pinchCount := 3 }.pinchCount ∧ 1000 ≤ (normal 988).record.position + 12 ∧
    (normal 987).record.position + 12 < 1000 ∧
    (∀ p, { normal p with record := { (normal p).record with travel := none } }.record.travel = none) ∧
    (200 ≤ (normal 200).record.position ∧ (normal 4000).record.position ≤ 4000) ∧
    ((normal 199).record.position < 200 ∧ 4000 < (normal 4001).record.position) := by
  refine ⟨fun w m => ⟨rfl, rfl, rfl, rfl, rfl, rfl, rfl⟩, rfl, rfl, by decide, rfl, rfl, by decide, by decide, rfl,
    by decide, by decide, by decide, by decide, fun p => rfl, by decide, by decide⟩

theorem test_meets_StallsAndFaultsEndMovements_references :
    let zones : Vector (Nat × Nat) 16 := put (Vector.replicate 16 (0, 0)) 3 (6000, 2)
    (look zones 0).2 = 0 ∧ 0 < (look zones 3).2 ∧ look WindowRec.blank.refs 3 = none ∧
      look (normal 5).record.refs 3 = some 2000 ∧ 2000 ≤ (look zones 3).1 / (look zones 3).2 ∧
      (look (put zones 3 (3998, 2)) 3).1 / (look (put zones 3 (3998, 2)) 3).2 < 2000 ∧
      updateRef (some 2000) (look zones 3) = some 2125 ∧ updateRef (some 2000) (1993, 1) = some 2000 := by decide

/-! Chains -/

theorem test_meets_ChainTablesAreWritten :
    Serving served ∧ stepIndexOf 63 = some 63 ∧ actionOf 11 = some .checkInside ∧
      maskOf 6 (0x3F : Byte) = some (0x3F : BitVec 6) ∧ argumentOf .windowTo 100 = some (some 100) ∧
      argumentOf .pause 250 = some (some 250) ∧ argumentOf .pause 0 = none ∧ roleOf 2 = some .master ∧
      maskOf 5 (0x1F : Byte) = some (0x1F : BitVec 5) ∧ maskOf 5 (0x20 : Byte) = none ∧
      triggerOfByte 0 = some .crash ∧ triggerOfByte 13 = some .linkFire ∧ startOf 0xFF = some none ∧
      startOf 63 = some (some 63) ∧ stagingOf 2 = some .keyProfile ∧ boolOf 1 = some true ∧
      maskOf 14 (0x3FFF : BitVec 16) = some (0x3FFF : BitVec 14) := by
  refine ⟨serving, ?_⟩
  decide

theorem test_meets_TriggerFireMakesALinkRun :
    Serving served ∧ stepIndexOf 0 = some 0 ∧ originOf served 0xFF = some .fl ∧ originOf served 4 = some .tg ∧
      runAt served .linkFire = none ∧ continueAt served .linkFire = none ∧
      (runAt (setRun .linkFire (some (run .ready 1)) served) .linkFire).isSome = true ∧
      continueAt (setContinue .linkFire (some { step := 3, expiry := 9 }) served) .linkFire =
        some { step := 3, expiry := 9 } := by
  refine ⟨serving, ?_⟩
  decide

/-- A firing of FOB_LOCK. -/
def firing (hold : Bool) : Firing :=
  { trigger := .fobLock, carried := { origin := .fl, role := .master, slot := some 0, profile := none },
    holdMark := hold, request := none }

/-- FOB_LOCK enabled, hold-to-run or not, with a run. -/
def fired (hold : Bool) (r : Run) : State :=
  setTrigger .fobLock { TriggerStatic.disabled with start := some 2, holdToRun := hold } (withRun r)

theorem test_meets_FiringsAreDecidedByTheRun :
    (firing true).trigger ≠ .crash ∧ firingStart served (firing true) = none ∧
      (∀ b, firingStart (fired b (run .ready 1)) (firing b) = some 2 ∧
        (triggerAt (fired b (run .ready 1)) .fobLock).holdToRun = b ∧
        runAt (fired b (run .ready 1)) .fobLock = some (run .ready 1)) ∧
      (run .faulted 1).state = .faulted ∧ (run .ready 1).state ≠ .faulted ∧ (run .active 1).state = .active ∧
      (run .suspended 1).state = .suspended ∧ (firing true).holdMark = true ∧ (firing false).holdMark = false := by
  decide

/-- FOB_LOCK enabled and without a run, FOB_UNLOCK in its cancel set, and another trigger's run. -/
def cancelling (u : Trigger) (r : Run) : State :=
  setTrigger .fobLock { TriggerStatic.disabled with start := some 2, priority := 2, cancelSet := 4 }
    (setRun u (some r) served)

theorem test_meets_FiringsAreDecidedByTheRun_taken :
    let cancels := fun u : Trigger => decide (u ≠ .fobLock) &&
      (triggerAt (cancelling u (run .active 2)) .fobLock).cancelSet.getLsbD (triggerIndex u).val
    (∀ u r, firingStart (cancelling u r) (firing false) = some 2) ∧
      runAt (cancelling .fobUnlock (run .active 2)) .fobLock = none ∧ (firing false).request = none ∧
      activeTrigger (cancelling .fobUnlock (run .active 2)) = some .fobUnlock ∧ cancels .fobUnlock = true ∧
      activeTrigger (cancelling .speedLock (run .active 1)) = some .speedLock ∧ cancels .speedLock = false ∧
      runAt (cancelling .speedLock (run .active 1)) .speedLock = some (run .active 1) ∧
      activeTrigger (cancelling .speedLock (run .ready 1)) = none ∧
      (newRun (cancelling .speedLock (run .active 1)) (firing false) 2).priority = 2 ∧
      (2 ≤ (run .active 2).priority ∧ (run .active 1).priority < 2) ∧
      { run .active 1 with pause := some { left := 9, since := some 0 } }.pause = some { left := 9, since := some 0 } ∧
      continueAt (setContinue .fobLock (some { step := 3, expiry := 9 }) served) .fobLock =
        some { step := 3, expiry := 9 } :=
  ⟨fun _ _ => rfl, by decide⟩

theorem test_meets_FiringsAreDecidedByTheRun_invariant : engineInvariant (cancelling .fobUnlock (run .active 2)) := by
  have one : ∀ v y, runAt (cancelling .fobUnlock (run .active 2)) v = some y → v = .fobUnlock ∧ y = run .active 2 := by
    intro v y e
    revert e
    cases v <;> intro e <;> first
      | (cases e; exact ⟨rfl, rfl⟩)
      | cases e
  refine ⟨fun t u r x h k _ _ => (one t r h).1.trans (one u x k).1.symm, fun t u r x h k _ _ => ?_⟩
  obtain ⟨-, rfl⟩ := one t r h
  obtain ⟨-, rfl⟩ := one u x k
  exact Nat.le_refl _

/-- CRASH as the defaults have it, with a run of its own and one of FOB_LOCK. -/
def crashRun (r : Option Run) : State :=
  setTrigger .crash (defaultTrigger .crash) (setRun .crash r (withRun (run .suspended 1)))

theorem test_meets_FiringsAreDecidedByTheRun_crash :
    let f := systemFiring .crash .fl
    (f.trigger = .crash ∧ f.request = none ∧ f.holdMark = false) ∧ (triggerAt served .crash).start = none ∧
      (∀ r, (triggerAt (crashRun r) .crash).start = some 16 ∧ runAt (crashRun r) .crash = r ∧
        runAt (crashRun r) .fobLock = some (run .suspended 1)) ∧
      Trigger.fobLock ≠ .crash ∧ (∀ u, u ≠ .crash → runAt served u = none) ∧
      (∀ v r, v ≠ .crash → runAt (crashRun none) v = some r → (triggerIndex v).val ≤ (triggerIndex .fobLock).val) ∧
      (run .faulted 3).state = .faulted ∧ (run .ready 3).state = .ready ∧ (run .active 3).state = .active := by
  refine ⟨⟨rfl, rfl, rfl⟩, rfl, fun r => ⟨rfl, rfl, rfl⟩, nofun, fun u _ => by cases u <;> rfl, ?_, rfl, rfl, rfl⟩
  intro v r _ h
  revert h
  cases v <;> intro h <;> first
    | decide
    | cases h

theorem test_meets_RunsAreResolvedAndReleased :
    Serving served ∧ triggerOfByte 1 = some .fobLock ∧ runAt served .fobLock = none ∧
      (∀ r, runAt (withRun r) .fobLock = some r ∧ Serving (withRun r) ∧ (withRun r).mail = []) ∧
      (run .ready 1).state ≠ .faulted ∧ (run .faulted 1).state = .faulted ∧
      activeTrigger (withRun (run .faulted 1)) = none ∧ { run .ready 1 with hold := some 600000 }.hold = some 600000 := by
  refine ⟨serving, by decide, by decide, fun r => ⟨rfl, ⟨⟨rfl, nofun⟩, rfl⟩, rfl⟩, by decide, by decide, by decide, rfl⟩

theorem test_meets_RunsAreResolvedAndReleased_retry_and_retire :
    let s := fun p => setRun .speedLock (some (run .active p)) (withRun (run .faulted 2))
    let m := plainMove .closing .toEnd (.chain .fobLock) []
    (∀ p, Serving (s p) ∧ runAt (s p) .fobLock = some (run .faulted 2) ∧ activeTrigger (s p) = some .speedLock ∧
      runAt (s p) .speedLock = some (run .active p)) ∧
      ((run .faulted 2).priority ≤ 2 ∧ 1 < (run .faulted 2).priority) ∧
      { run .faulted 2 with outcomes := (Five.all none).set .rl (some (.fault .jam)) }.outcomes.get .rl =
        some (.fault .jam) ∧
      (∀ ph f, (windowAt (withWindow (driven (normal 5) ph (some (freshMotion m)) f)) .fl).phase = ph ∧
        (windowAt (withWindow (driven (normal 5) ph (some (freshMotion m)) f)) .fl).motion = some (freshMotion m) ∧
        (windowAt (withWindow (driven (normal 5) ph (some (freshMotion m)) f)) .fl).followOn = f) ∧
      m.requester = .chain .fobLock ∧ (plainMove .closing .toEnd .link []).requester ≠ .chain .fobLock :=
  ⟨fun _ => ⟨⟨⟨rfl, nofun⟩, rfl⟩, rfl, rfl, rfl⟩, by decide, by decide, fun _ _ => ⟨rfl, rfl, rfl⟩, rfl, nofun⟩

theorem test_meets_EngineTimersExpire :
    served.power = .running ∧
      { served with engine := { served.engine with relock := some 9 } }.engine.relock = some 9 ∧
      continueAt (setContinue .fobLock (some { step := 3, expiry := 9 }) served) .fobLock =
        some { step := 3, expiry := 9 } ∧
      activeTrigger (withRun { run .active 1 with pause := some { left := 9, since := some 0 } }) = some .fobLock ∧
      runAt (withRun { run .active 1 with pause := some { left := 9, since := some 0 } }) .fobLock =
        some { run .active 1 with pause := some { left := 9, since := some 0 } } := by decide

/-- A step of an action with flags, for FL. -/
def stepOf (a : Action) (flags : BitVec 5) : Step :=
  { action := a, apertures := 1, argument := none, minRole := .valet, flags, next := 5 }

/-- An ACTIVE run in a step, with what remains at FL. -/
def stepping (st : Step) (left : Bool) (o : Option OpOutcome) : Run :=
  { run .active 2 with
    step := some st, steps := 1, remaining := (Five.all false).set .fl left, outcomes := (Five.all none).set .fl o }

theorem test_meets_EngineTimersExpire_steps :
    let r := stepping (stepOf .lock 0) false none
    (∀ st b o, activeTrigger (withRun (stepping st b o)) = some .fobLock ∧
      runAt (withRun (stepping st b o)) .fobLock = some (stepping st b o) ∧ (stepping st b o).step = some st) ∧
      stepDone (stepping (stepOf .lock 0) true none) (stepOf .lock 0) = false ∧
      stepDone r (stepOf .lock 0) = true ∧ stepDone { r with pause := some { left := 9, since := none } } (stepOf .pause 0) = false ∧
      stepDone { r with searchResult := some true } (stepOf .checkInside 0) = true ∧
      stepDone { r with searchResult := some false } (stepOf .checkInside 0) = true ∧
      firstFault r = none ∧
      firstFault (stepping (stepOf .lock 0) false (some (.fault .jam))) = some (.jam, some .fl) ∧
      engineMove served = none ∧ (∃ x, engineMove (withRun r) = some x) ∧
      activeTrigger (setRun .crash (some r) served) = some .crash := by
  refine ⟨fun st b o => ⟨rfl, rfl, rfl⟩, by decide, by decide, by decide, by decide, by decide, by decide, by decide,
    rfl, ⟨_, rfl⟩, by decide⟩

theorem test_meets_EngineTimersExpire_ends :
    (hasStop (stepOf .lock 1) = true ∧ hasStop (stepOf .lock 2) = false ∧ hasStage (stepOf .lock 2) = true ∧
      hasStage (stepOf .lock 0) = false ∧ hasNotify (stepOf .lock 4) = true ∧ hasNotify (stepOf .lock 0) = false) ∧
    { run .active 2 with staged := true }.staged = true ∧ (run .active 2).staged = false ∧
    (64 ≤ { run .active 2 with steps := 64 }.steps ∧ { run .active 2 with steps := 63 }.steps < 64) ∧
    refireAt served .fobLock = none ∧ refireAt (setRefire .fobLock (some (firing false).carried) served) .fobLock =
      some (firing false).carried ∧
    (served.vehicle.powerMode = .off ∧ served.sup.mode ≠ .autonomous) ∧
    { served with sup := { served.sup with mode := .autonomous } }.sup.mode = .autonomous ∧
    (RunOutcome.keyInside ≠ .completed ∧ RunOutcome.keyInside ≠ .staged) := by decide

theorem test_meets_EngineTimersExpire_outcomes :
    let r := stepping (stepOf .lock 0) true none
    let n : Nat → Notice := fun k =>
      { trigger := .fobLock, serial := 0, count := k, aperture := .fl, outcome := .done }
    runAt (withRun r) .fobLock = some r ∧
      (r.serial = (n 1).serial ∧ r.steps = (n 1).count ∧ r.remaining.get (n 1).aperture = true) ∧
      r.steps ≠ (n 2).count ∧ runAt served .fobLock = none :=
  ⟨rfl, ⟨rfl, rfl, rfl⟩, by decide, rfl⟩

theorem test_meets_EngineTimersExpire_one_active : oneActive served := by
  intro t _ r _ h
  cases t <;> cases h

theorem test_meets_TheEngineChoosesByPriorityThenIndex_begun :
    let f := stepping (stepOf .lock 0) false (some (.fault .jam))
    (run .ready 2).step = none ∧ (f.step = some (stepOf .lock 0) ∧ firstFault f = some (.jam, some .fl)) ∧
      (stepping (stepOf .pause 0) false none).step = some (stepOf .pause 0) ∧
      firstFault (stepping (stepOf .pause 0) false none) = none ∧
      (stepping (stepOf .lock 0) true none).remaining.get .fl = true ∧
      (∀ a, (stepping (stepOf .lock 0) false none).remaining.get a = false) ∧
      (stepOf .checkInside 0).action = .checkInside := by
  refine ⟨by decide, by decide, by decide, by decide, by decide, fun a => by cases a <;> decide, by decide⟩

/-- That part with step 0 as given and a run of FOB_LOCK about to begin it. -/
def beginning (c : StepCell) (n : Nat) : State := setStep 0 c (withRun { run .active 2 with steps := n })

theorem test_meets_TheEngineChoosesByPriorityThenIndex_begins :
    (∀ c n, activeTrigger (beginning c n) = some .fobLock ∧
      runAt (beginning c n) .fobLock = some { run .active 2 with steps := n } ∧ stepAt (beginning c n) 0 = c) ∧
      64 ≤ 64 ∧ 63 < 64 ∧ { stepOf .pause 0 with argument := some 250 }.argument = some 250 ∧
      (stepOf .empty 0).action = .empty ∧ (stepOf .lock 0).action ≠ .empty ∧ (stepOf .lock 0).action ≠ .pause ∧
      (stepOf .lock 0).action ≠ .checkInside ∧ roleRank .valet < roleRank .family ∧
      roleRank (stepOf .lock 0).minRole ≤ roleRank (run .active 2).role ∧
      (hasSkipMet (stepOf .lock 8) = true ∧ hasSkipMet (stepOf .lock 0) = false) ∧
      stepMet served (stepOf .unlock 8) .fl = true ∧ stepMet served (stepOf .lock 8) .fl = false ∧
      (resolvedSet { stepOf .windowClose 0 with apertures := 0x30 } .fr).get .tg = false := by
  refine ⟨fun c n => ⟨rfl, rfl, ?_⟩, by decide⟩
  exact look_put_same _ _ _

theorem test_meets_TheEngineChoosesByPriorityThenIndex :
    let s := setRun .speedLock (some (run .suspended 2)) (withRun (run .ready 2))
    s.power = .running ∧ activeTrigger s = none ∧ runAt s .fobLock = some (run .ready 2) ∧
      waits (run .ready 2) = true ∧
      ∀ v x, runAt s v = some x → waits x = true → x.priority < 2 ∨
        (x.priority = 2 ∧ (triggerIndex .fobLock).val ≤ (triggerIndex v).val) := by
  refine ⟨rfl, by decide, by decide, by decide, ?_⟩
  intro v x h _
  revert h
  cases v <;> intro h <;> first
    | (cases h; decide)
    | cases h

theorem test_meets_TheEngineChoosesByPriorityThenIndex_issued :
    (stepping (stepOf .lock 0) true none).remaining.get .fl = true ∧
      (hasNoWait (stepOf .lock 16) = true ∧ hasNoWait (stepOf .lock 15) = false) ∧
      (pairQualified served .fl = true ∧ pairQualified State.reset .fl = false) ∧
      (apertureRear .rl = some .rl ∧ childQualified State.reset .rl = false ∧ childQualified (childDue true none none) .rl = true) ∧
      (apertureRear .fl = none ∧ apertureDoor .fl = some .fl ∧ Aperture.fl ≠ .tg) ∧
      (windowAt served .fl).record.travel = none ∧
      (windowAt (withWindow (normal 5)) .fl).record.travel = some 1000 ∧
      { stepOf .windowTo 0 with argument := some 100 }.argument = some 100 := by decide

/-- A window whose aperture's switch pair has not first qualified is not met. -/
theorem test_window_met_asks_for_the_pair :
    let s := setWindow .fl (normal 0) served
    windowMet s .fl (stepOf .windowClose 8) = true ∧
      windowMet { s with inputs := State.reset.inputs } .fl (stepOf .windowClose 8) = false := by decide

theorem test_meets_TheEngineHasOneHolder :
    engineInvariant (withRun (run .active 2)) ∧ (∃ t, step (withRun (run .active 2)) = .next t) ∧ Settled served := by
  have one : ∀ v y, runAt (withRun (run .active 2)) v = some y → v = .fobLock ∧ y = run .active 2 := by
    intro v y e
    revert e
    cases v <;> intro e <;> first
      | (cases e; exact ⟨rfl, rfl⟩)
      | cases e
  refine ⟨⟨fun t u r x h k _ _ => (one t r h).1.trans (one u x k).1.symm, fun t u r x h k _ _ => ?_⟩, ⟨_, rfl⟩, settled⟩
  obtain ⟨-, rfl⟩ := one t r h
  obtain ⟨-, rfl⟩ := one u x k
  exact Nat.le_refl _

/-! The Record Store and the bounds -/

/-- A write of the crash record in flight with its waiters. -/
def writing (w : List WriteWaiter) : State :=
  { served with store := { served.store with inFlight := some { id := .crash, content := .crash true, waiters := w } }
                engine := { served.engine with defaulting := some 77 } }

theorem test_meets_WritesMergeStartAndComplete :
    let e : WriteEntry := { id := .crash, content := .crash true, waiters := [] }
    let s := { served with store := { served.store with queue := [e] } }
    let r := { served with store := { served.store with repair := [(.crash, .crash false)] } }
    (∃ x ∈ s.store.queue, x.id = .crash) ∧ (∀ x ∈ s.store.queue, x.id ≠ .settings) ∧
      (s.store.queue.map WriteEntry.id).Nodup ∧ s.power = .running ∧ s.store.scanDone = true ∧
      s.store.inFlight = none ∧ s.store.queue = e :: [] ∧ r.store.queue = [] ∧
      r.store.repair = (.crash, .crash false) :: [] ∧
      (∀ w, (writing w).power = .running ∧ Settled (writing w) ∧
        (writing w).store.inFlight = some { id := .crash, content := .crash true, waiters := w } ∧
        (writing w).entry.processing = none ∧ (writing w).engine.defaulting = some 77) ∧
      (∃ p, defaultRecord 0 = some p) ∧ (∃ p, defaultRecord 77 = some p) ∧ defaultRecord 78 = none := by
  refine ⟨⟨_, .head _, rfl⟩, ?_, by decide, rfl, rfl, rfl, rfl, rfl, rfl, fun w => ⟨rfl, ⟨rfl, rfl⟩, rfl, rfl, rfl⟩,
    ⟨_, rfl⟩, ⟨_, rfl⟩, rfl⟩
  intro x h
  cases h with
  | head => exact nofun
  | tail _ h => exact nomatch h

theorem test_meets_WritesMergeStartAndComplete_waiting_frame :
    let e : WriteEntry := { id := .key 0, content := .key master, waiters := [.linkChange 0] }
    let s := fun k n => { setKey 0 { k with marker := .linkChange } keyed with
      store := { keyed.store with inFlight := some e }
      entry := { keyed.entry with processing := some { stamped := frame n, stage := .atMatch 0 } } }
    let s2 := fun k n => reply .ok [] (setKey 0 { keyAt (s k n) 0 with marker := .none } (s k n))
    let k := KeyRecord.load master
    (∀ n, (s k n).power = .running ∧ Settled (s k n) ∧ (s k n).store.inFlight = some e ∧
      (s k n).entry.processing = some { stamped := frame n, stage := .atMatch 0 }) ∧
      findIdentity (s2 k 1) 7 = some 0 ∧ (keyAt (s2 k 1) 0).marker ≠ .linkChange ∧
      findIdentity (s2 (changed k .revoke) 1) 7 = none ∧
      verdict (keyAt (s2 (changed k .suspend) 1) 0) (frame 1) = .reject .suspended ∧
      verdict (keyAt (s2 k 1) 0) (frame 1) = .accept := by
  refine ⟨fun n => ⟨rfl, ⟨rfl, rfl⟩, rfl, rfl⟩, rfl, nofun, rfl, rfl, ?_⟩
  unfold verdict
  rw [if_neg (by decide), if_neg (fun h => h rfl)]
  rfl

theorem test_meets_AcceptedCommandsAwaitTheirCounter :
    let e : WriteEntry := { id := .key 0, content := .key master, waiters := [.counterPersist 0] }
    let s := { keyed with
      store := { keyed.store with inFlight := some e }
      entry := { keyed.entry with processing := some { stamped := frame 1, stage := .accepted 0 } } }
    s.power = .running ∧ s.store.inFlight = some e ∧ e.waiters = [.counterPersist 0] ∧
      s.entry.processing = some { stamped := frame 1, stage := .accepted 0 } ∧ s.keys.waiting ≠ some (0, .resume) ∧
      (∀ c, { keyed.keys with waiting := some (0, c) }.waiting = some (0, c)) ∧
      keyCheck keyed 0 .suspend = some .lastMaster ∧
      (keyCheck keyed 0 .resume = none ∧ nothingToChange (keyAt keyed 0) .resume = true) ∧
      (keyCheck keyed 0 (.profile KeyStored.empty.profile) = none ∧
        nothingToChange (keyAt keyed 0) (.profile KeyStored.empty.profile) = false) ∧
      (isHold .holdClose = true ∧ KeyStored.empty.profile.comfortWindows = false) ∧
      (isHold .holdOpen = true ∧ (keyAt s 0).stored.profile.comfortWindows = true ∧ s.vehicle.powerMode = .off) ∧
      PowerMode.run ≠ .off ∧ isHold .lock = false :=
  ⟨rfl, rfl, rfl, rfl, nofun, fun _ => rfl, by decide, by decide, by decide, ⟨rfl, rfl⟩, ⟨rfl, rfl, rfl⟩, nofun, rfl⟩

theorem test_meets_TheScanLoadsEveryOwner :
    State.reset.power = .running ∧ State.reset.store.scanDone = false ∧ Settled State.reset ∧
      State.reset.latches.crashPending = false ∧
      anyDamage (damageCounts (damageFlash .crash Flash.erased)) = true ∧
      (repairs (damageFlash .crash Flash.erased)).any (fun p => p.1 = .crash) = true ∧
      (writing []).store.queue = [] ∧
      { State.reset with latches := { Latches.reset with crashPending := true } }.latches.crashPending = true :=
  ⟨rfl, rfl, ⟨rfl, rfl⟩, rfl, rfl, rfl, rfl, rfl⟩

theorem test_meets_BlankAndDamagedRecords_judging :
    keyInRange master = true ∧ stepInRange (defaultStep 0) = true ∧ triggerInRange .crash (defaultTrigger .crash) = true ∧
      settingsInRange Settings.default = true ∧ windowInRange WindowRec.blank = true ∧
      keyInRange KeyStored.damaged = false ∧ keyInRange { master with role := .system } = false ∧
      settingsInRange { Settings.default with speedThreshold := 5, retainedPower := 120 } = true ∧
      settingsInRange { Settings.default with speedThreshold := 4 } = false ∧
      settingsInRange { Settings.default with retainedPower := 121 } = false ∧
      windowInRange { WindowRec.blank with travel := some 200, level := 15 } = true ∧
      windowInRange { WindowRec.blank with travel := some 199 } = false ∧
      windowInRange { WindowRec.blank with level := 16 } = false ∧
      triggerInRange .fobLock { defaultTrigger .fobLock with priority := 3 } = false ∧
      (∀ c, c = checkOf (.crash true) ∨ c ≠ checkOf (.crash true)) := by
  refine ⟨by decide, by decide, by decide, by decide, by decide, by decide, by decide, by decide, by decide, by decide,
    by decide, by decide, by decide, by decide, fun c => Decidable.em _⟩

theorem test_meets_BlankAndDamagedRecords :
    isBlank Flash.erased = true ∧ isBlank (damageFlash .crash Flash.erased) = false ∧
      (∀ d, judgedWindow (damageFlash .crash Flash.erased) d = .erased) ∧
      judgedKey (damageFlash (.key 7) Flash.erased) 7 = .damaged ∧
      judgedStep (damageFlash (.step 63) Flash.erased) 63 = .damaged ∧
      judgedTrigger (damageFlash (.trigger .linkFire) Flash.erased) .linkFire = .damaged ∧
      judgedSettings (damageFlash .settings Flash.erased) = .damaged ∧
      judgedWindow (damageFlash (.window .rr) Flash.erased) .rr = .damaged ∧
      judgedCrash (damageFlash .crash Flash.erased) = .damaged ∧
      judgedCrash (writeFlash .crash (.crash true) Flash.erased) = .sound true ∧
      judgedSettings (writeFlash .settings (.settings Settings.default) Flash.erased) = .sound Settings.default :=
  ⟨rfl, rfl, fun d => by cases d <;> rfl, rfl, rfl, rfl, rfl, rfl, rfl, judgeCopy_written _ _ _ rfl,
    judgeCopy_written _ _ _ (by decide)⟩

theorem test_keysInvariant : keysInvariant keyed := by
  have table : ∀ i j : Fin 8, i ≠ j → (usable (keyAt keyed i).stored && usable (keyAt keyed j).stored) = false := by
    decide
  have erased : ∀ i, receivedKey keyed.store.flash i = KeyStored.empty := fun i => by
    rw [receivedKey, show judgedKey keyed.store.flash i = .erased from by revert i; decide,
      show isBlank keyed.store.flash = true from rfl]
    rfl
  have marks : ∀ i, (keyAt keyed i).marker = .none := by decide
  refine ⟨fun i j h ⟨n, x, y⟩ => ?_, fun i j _ ⟨n, x, _⟩ => ?_, fun _ i n x => ?_, ⟨fun _ m => absurd m List.not_mem_nil, fun _ => Nat.zero_le _⟩,
    fun _ m => (by cases m), fun i e => ?_, fun h => (by cases h), fun _ m => absurd m List.not_mem_nil⟩
  · have := table i j h
    rw [x.1, y.1] at this
    exact nomatch this
  · rw [erased i] at x
    exact nomatch x.1
  · rw [show toCome keyed.store = [] from rfl] at x
    replace x : names (receivedKey keyed.store.flash i) n := x
    rw [erased i] at x
    exact nomatch x.1
  · rw [marks i] at e
    exact nomatch e

theorem test_meets_BoundsAreKept :
    bounded served ∧ keysInvariant keyed ∧ keysInvariant (requestChange 7 (.enroll 9 0 .valet 0 master.profile) keyed) ∧
      (toCome (requestChange 7 (.enroll 9 0 .valet 0 master.profile) keyed).store).length = 1 ∧
      (∃ t, step served = .next t) ∧ ∃ t, step { keyed with pending := [.storeWriteStart] } = .next t := by
  refine ⟨⟨by decide, by decide, by decide, fun a => by unfold creditWithin; cases a <;> decide, fun d => ?_⟩,
    test_keysInvariant, test_keysInvariant.requestChange rfl _ _, by decide, ⟨_, rfl⟩, ⟨_, rfl⟩⟩
  have w : windowAt served d = Window.reset := by cases d <;> rfl
  rw [w]
  exact ⟨by rintro _ ⟨⟩, fun h => absurd h (by decide), Nat.zero_le _, scoreWithin_none rfl⟩

theorem test_meets_BoundsAreKept_at_the_edges :
    windowWithin (normal 1024) ∧ bound (some 1000) = 1024 ∧ bound none = 4024 ∧
      windowWithin (coast 0 { normal 7 with motion := some (motion .closing .toEnd 1), pinchCount := 3 }) ∧
      creditWithin LatchUnit.reset ∧ creditOf LatchUnit.reset 99 = 3000 := by
  refine ⟨⟨?_, by decide, by decide, scoreWithin_none rfl⟩, rfl, rfl, ⟨?_, by decide, by decide, ?_⟩, by unfold creditWithin; decide, rfl⟩
  · rintro _ ⟨⟩; decide
  · rintro _ ⟨⟩; decide
  · rintro _ ⟨⟩; exact ⟨by decide, .inl rfl⟩

end Sys2Proof.Tests
end

/-! Counter acceptance (02, R24): the range of differences of each class, and the verdict each class gives. -/

namespace Sys2Proof.Machine

open Sys2Proof

/-! ### The class of a counter -/

/-- The 24-bit difference, as a number, is the difference modulo 16,777,216 that 02, R24 speaks of. -/
theorem toNat_counter_sub (f c : BitVec 24) : (f - c).toNat = (f.toNat + 16777216 - c.toNat) % 16777216 := by
  have hc : c.toNat < 16777216 := c.isLt
  have order : 16777216 - c.toNat + f.toNat = f.toNat + 16777216 - c.toNat := by omega
  exact (BitVec.toNat_sub f c).trans (congrArg (· % 16777216) order)

/-- The differences of a class, as 02, R24 lists them. -/
def CounterClass.Covers : CounterClass → Nat → Prop
  | .stale, d => d = 0 ∨ (8388608 ≤ d ∧ d ≤ 16777215)
  | .inWindow, d => 1 ≤ d ∧ d ≤ 64
  | .resync, d => 65 ≤ d ∧ d ≤ 16384
  | .far, d => 16385 ≤ d ∧ d ≤ 8388607

theorem counterClass_eq_of_covers {f c : BitVec 24} {x : CounterClass} (covers : x.Covers (f - c).toNat) :
    counterClass f c = x := by
  dsimp only [counterClass]
  cases x with
  | stale =>
    obtain zero | ⟨behind, -⟩ := covers
    · rw [if_pos zero]
    · rw [if_neg (by omega), if_neg (by omega), if_neg (by omega), if_neg (by omega)]
  | inWindow =>
    obtain ⟨ahead, le⟩ := covers
    rw [if_neg (by omega), if_pos le]
  | resync =>
    obtain ⟨ahead, le⟩ := covers
    rw [if_neg (by omega), if_neg (by omega), if_pos le]
  | far =>
    obtain ⟨ahead, le⟩ := covers
    rw [if_neg (by omega), if_neg (by omega), if_neg (by omega), if_pos le]

/-! ### The verdict of a class -/

/-- What counter acceptance answers for a frame whose counter is of a class (02, R24, R25). -/
def CounterClass.verdict (k : KeyRecord) (f : StampedFrame) : CounterClass → Verdict
  | .stale => .reject .stale
  | .inWindow => .accept
  | .resync => if resyncConfirmed k f then .accept else .reject .resyncPending
  | .far => .reject .far

/-- A frame with a correct check, matched to an ACTIVE record, reaches counter acceptance (02, R23). -/
theorem verdict_eq_of_active_of_check {k : KeyRecord} {f : StampedFrame} (active : k.stored.state = .active)
    (correct : Config.frameCheck k.stored.secret f.frame.identity f.frame.counter
      (BitVec.ofNat 3 (fobCommandCode f.frame.command)) = f.frame.check) :
    verdict k f = (counterClass f.frame.counter k.stored.counter).verdict k f := by
  have notSuspended : k.stored.state ≠ .suspended := by simp [active]
  unfold verdict
  rw [if_neg notSuspended, if_neg (not_not_intro correct)]
  cases counterClass f.frame.counter k.stored.counter <;> rfl

/-- Settles O29: the difference decides the class, and the class decides the verdict. -/
theorem countersAreJudgedByTheirDifference : Obligations.CountersAreJudgedByTheirDifference := by
  intro k f active correct d
  have judged (x : CounterClass) (covers : x.Covers d) : verdict k f = x.verdict k f := by
    have covered : x.Covers (f.frame.counter - k.stored.counter).toNat := by rwa [toNat_counter_sub]
    rw [verdict_eq_of_active_of_check active correct, counterClass_eq_of_covers covered]
  exact ⟨judged .stale, judged .inWindow, judged .resync, judged .far⟩

end Sys2Proof.Machine

/-! The first three stages of the pinch computation (06, R108 to R110): period, zone and excess. -/

namespace Sys2Proof.Machine

open Sys2Proof

/-! ### Stage 1: the normalized period -/

theorem clampTo_eq_max_min {lo hi : Nat} (ordered : lo ≤ hi) (x : Nat) : clampTo lo hi x = max lo (min hi x) := by
  unfold clampTo
  split
  case isTrue below => omega
  case isFalse => split <;> omega

theorem normalizedPeriod_eq (t mv : Nat) :
    normalizedPeriod t mv = min 65535 (t * max 9000 (min 16000 mv) / 13500) := by
  rw [normalizedPeriod, clampTo_eq_max_min (by decide)]

/-- The least period at the least supply, 150 × 9,000 / 13,500, bounds every normalized period (06, R108). -/
theorem le_normalizedPeriod {t : Nat} (shortest : 150 ≤ t) (mv : Nat) : 100 ≤ normalizedPeriod t mv := by
  have product : 150 * 9000 ≤ t * max 9000 (min 16000 mv) := Nat.mul_le_mul shortest (Nat.le_max_left ..)
  have quotient : 100 ≤ t * max 9000 (min 16000 mv) / 13500 := by
    rw [Nat.le_div_iff_mul_le (by decide)]
    exact product
  rw [normalizedPeriod_eq]
  exact Nat.le_min.mpr ⟨by decide, quotient⟩

/-- Settles O44: the model's clamp is the max-min of the statement, and the product is monotone in both factors. -/
theorem periodsAreNormalizedTo13500 : Obligations.PeriodsAreNormalizedTo13500 :=
  fun t mv shortest _ => ⟨normalizedPeriod_eq t mv, le_normalizedPeriod shortest mv⟩

/-! ### Stage 2: the zone of a position -/

theorem zoneOf_val (l p : Nat) : (zoneOf l p).val = min 15 (p * 16 / (l + 1)) := rfl

/-- A position at the open end or past it lies in the last zone (06, R109), once the travel has a step for each zone. -/
theorem zoneOf_val_of_travel_le {l p : Nat} (long : 16 ≤ l + 1) (reached : l ≤ p) : (zoneOf l p).val = 15 := by
  have quotient : 15 ≤ p * 16 / (l + 1) := by
    rw [Nat.le_div_iff_mul_le l.succ_pos]
    omega
  rw [zoneOf_val, Nat.min_eq_left quotient]

/-- Settles O45: the open end and every position past it are one case. -/
theorem zonesDivideTheTravel : Obligations.ZonesDivideTheTravel :=
  fun l p => ⟨zoneOf_val l p, fun long => zoneOf_val_of_travel_le long (Nat.le_refl l),
    fun past long => zoneOf_val_of_travel_le long (Nat.le_of_lt past)⟩

/-! ### Stage 3: the excess over the reference -/

theorem excess_none (tn : Nat) : excess none tn = 0 := rfl

theorem excess_some_of_lt {r tn : Nat} (slower : r < tn) : excess (some r) tn = min 255 ((tn - r) * 256 / r) :=
  if_pos slower

theorem excess_some_of_le {r tn : Nat} (notSlower : tn ≤ r) : excess (some r) tn = 0 :=
  if_neg (Nat.not_lt_of_le notSlower)

/-- Settles O46, one row of the table of 06, R110 after the other. -/
theorem excessOverTheReference : Obligations.ExcessOverTheReference :=
  fun _ tn => ⟨excess_none tn, excess_some_of_lt, excess_some_of_le⟩

end Sys2Proof.Machine

/-! Attention reporting (11, R180, R181): the set and the mask as sets of flags, and who empties or keeps the set. -/

namespace Sys2Proof.Machine

open Sys2Proof

/-! ### Flags and their bits -/

/-- Two sets written as words meet exactly when some bit is set in both. -/
theorem and_ne_zero_iff_exists_getLsbD {w : Nat} {x y : BitVec w} :
    x &&& y ≠ 0#w ↔ ∃ i, x.getLsbD i = true ∧ y.getLsbD i = true := by
  constructor
  · intro meet
    refine Classical.byContradiction fun apart => meet (BitVec.eq_of_getLsbD_eq fun i _ => ?_)
    rw [BitVec.getLsbD_and, BitVec.getLsbD_zero, Bool.eq_false_iff, ne_eq, Bool.and_eq_true]
    exact fun both => apart ⟨i, both⟩
  · rintro ⟨i, inX, inY⟩ empty
    have bit : (x &&& y).getLsbD i = false := by rw [empty, BitVec.getLsbD_zero]
    rw [BitVec.getLsbD_and, inX, inY] at bit
    exact absurd bit (by decide)

theorem flagBit_lt (f : AttentionFlag) : flagBit f < 16 := by
  cases f <;> decide

/-- No bit of the set is spare: each of the sixteen is some flag's (12, R185). -/
theorem exists_flagBit_eq : ∀ {i : Nat}, i < 16 → ∃ f, flagBit f = i
  | 0, _ => ⟨.chainDone, rfl⟩
  | 1, _ => ⟨.chainNotify, rfl⟩
  | 2, _ => ⟨.chainFault, rfl⟩
  | 3, _ => ⟨.triggerRefused, rfl⟩
  | 4, _ => ⟨.pinch, rfl⟩
  | 5, _ => ⟨.latchFault, rfl⟩
  | 6, _ => ⟨.windowFault, rfl⟩
  | 7, _ => ⟨.learnFail, rfl⟩
  | 8, _ => ⟨.keyReject, rfl⟩
  | 9, _ => ⟨.keyInside, rfl⟩
  | 10, _ => ⟨.ajarLock, rfl⟩
  | 11, _ => ⟨.crash, rfl⟩
  | 12, _ => ⟨.wake, rfl⟩
  | 13, _ => ⟨.silence, rfl⟩
  | 14, _ => ⟨.storeDamage, rfl⟩
  | 15, _ => ⟨.powerHold, rfl⟩
  | _ + 16, h => by omega

theorem getLsbD_flagMask (f : AttentionFlag) (i : Nat) :
    (flagMask f).getLsbD i = decide (flagBit f = i) := by
  rw [flagMask, ← BitVec.twoPow_eq, BitVec.getLsbD_twoPow, decide_eq_true (flagBit_lt f), Bool.true_and]

theorem raised_iff_getLsbD (f : AttentionFlag) (s : State) :
    raised f s = true ↔ s.link.flags.getLsbD (flagBit f) = true := by
  rw [raised, bne_iff_ne, BitVec.ofNat_eq_ofNat, and_ne_zero_iff_exists_getLsbD]
  simp only [getLsbD_flagMask, decide_eq_true_eq, exists_eq_right']

/-! ### The line -/

/-- A common bit of set and mask lies below 16, so it is a flag's bit. -/
theorem attn_iff_exists_raised (s : State) :
    attn s = true ↔ ∃ f, raised f s = true ∧ s.link.mask.getLsbD (flagBit f) = true := by
  rw [attn, bne_iff_ne, BitVec.ofNat_eq_ofNat, and_ne_zero_iff_exists_getLsbD]
  constructor
  · rintro ⟨i, inSet, inMask⟩
    obtain ⟨f, rfl⟩ := exists_flagBit_eq (BitVec.lt_of_getLsbD inSet)
    exact ⟨f, (raised_iff_getLsbD f s).mpr inSet, inMask⟩
  · rintro ⟨f, inSet, inMask⟩
    exact ⟨flagBit f, (raised_iff_getLsbD f s).mp inSet, inMask⟩

/-- With the set empty ATTN is deasserted, whatever the mask. -/
theorem attn_eq_false_of_flags_eq_zero {s : State} (empty : s.link.flags = 0) : attn s = false := by
  rw [attn, empty, BitVec.ofNat_eq_ofNat, BitVec.zero_and, bne_self_eq_false]

/-! ### Resets and requests -/

@[simp] theorem afterReset_link_flags (p : Power) (c : ResetCause) (s : State) :
    (afterReset p c s).link.flags = 0 := rfl

theorem exec_attentionRead {s : State} (h : Serving s) :
    exec .attentionRead s = .next (reply .ok (bytes2 (taken 0 s).link.flags.toNat)
      { taken 0 s with link := { (taken 0 s).link with flags := 0 } }) :=
  hostRequest_ready h

theorem exec_attentionMask (m : BitVec 16) {s : State} (h : Serving s) :
    exec (.attentionMask m) s =
      .next (reply .ok [] { taken 2 s with link := { (taken 2 s).link with mask := m } }) :=
  hostRequest_ready h

/-- Settles O12: the line is read bit by bit, and each event that empties the set leaves it deasserted. -/
theorem attnFollowsFlagsAndMask : Obligations.AttnFollowsFlagsAndMask := by
  refine ⟨attn_iff_exists_raised, fun f s => ⟨raised_raise f s, raise_link_mask f s⟩, fun p c s => ?reset,
    fun s serves => ⟨?read, fun m => ?mask⟩⟩
  case reset =>
    have empty := afterReset_link_flags p c s
    exact ⟨empty, attn_eq_false_of_flags_eq_zero empty⟩
  case read => exact ⟨_, exec_attentionRead serves, rfl, attn_eq_false_of_flags_eq_zero rfl⟩
  case mask => exact ⟨_, exec_attentionMask m serves, rfl, reply_link_flags ..⟩

end Sys2Proof.Machine

/-! The commands by their form: a host request with its owner, an event with its meaning, or one of the four that reach a
part held in a reset. What every owner and every event keeps, every command keeps. -/

namespace Sys2Proof.Machine

open Sys2Proof

/-! ### A command's form -/

/-- What the owner of a host request does once the frame is taken. -/
def ownerOf : Instr → Option (State → State)
  | .deviceStatus => some reqDeviceStatus
  | .deviceStatusClear => some reqDeviceStatusClear
  | .reset => some reqReset
  | .park => some reqPark
  | .vehicleState v m => some (reqVehicleState v m)
  | .attentionRead => some reqAttentionRead
  | .attentionMask m => some (reqAttentionMask m)
  | .settingsRead => some reqSettingsRead
  | .settingsWrite d a v w r p n => some (reqSettingsWrite d a v w r p n)
  | .keyLookup i => some (reqKeyLookup i)
  | .keyFind x => some (reqKeyFind x)
  | .keyEnroll i x k r c u p w => some (reqKeyEnroll i x k r c u p w)
  | .keyProfile i u p w => some (reqKeyProfile i u p w)
  | .keyRole i r => some (reqKeyRole i r)
  | .keySuspend i => some (reqKeySuspend i)
  | .keyResume i => some (reqKeyResume i)
  | .keyRevoke i => some (reqKeyRevoke i)
  | .enrollOpen => some reqEnrollOpen
  | .apertureRead a => some (reqApertureRead a)
  | .apertureCommandLock a => some (reqLatch .locked a)
  | .apertureCommandUnlock a => some (reqLatch .unlocked a)
  | .apertureCommandDeadlock a => some (reqLatch .deadlocked a)
  | .apertureCommandChildOn a => some (reqLatch .on a)
  | .apertureCommandChildOff a => some (reqLatch .off a)
  | .apertureCommandTailgateRelease a => some (reqLatch .release a)
  | .apertureCommandWindowOpen a => some (reqWindowMove .opening a)
  | .apertureCommandWindowClose a => some (reqWindowMove .closing a)
  | .apertureCommandWindowTo a p => some (reqWindowTo a p)
  | .windowStop a => some (reqWindowStop a)
  | .windowSetup d l x => some (reqWindowSetup d l x)
  | .windowRelearn d => some (reqWindowRelearn d)
  | .stepRead i => some (reqStepRead i)
  | .stepWrite i a x g r f n => some (reqStepWrite i a x g r f n)
  | .triggerRead i => some (reqTriggerRead i)
  | .triggerWrite i b p g h c => some (reqTriggerWrite i b p g h c)
  | .chainsDefault => some reqChainsDefault
  | .triggerFire b p o => some (reqTriggerFire b p o)
  | .runStatus => some reqRunStatus
  | .runResolveRetry i => some (reqRunRetry i)
  | .runResolveAbandon i => some (reqRunAbandon i)
  | .clearCrash => some reqClearCrash
  | _ => none

/-- What an event of a part that runs does; the transactions told byte by byte stand aside. -/
def eventOf : Instr → Option (State → State)
  | .scanComplete => some scanComplete
  | .storeWriteStart => some writeStart
  | .storeWriteComplete => some writeComplete
  | .rfFrameArrival b => some (rfArrival b)
  | .frameTake => some frameTake
  | .searchStart => some searchStart
  | .challengeEnd => some challengeEnd
  | .searchComplete => some searchComplete
  | .enrollWindowExpiry => some enrollExpiry
  | .qualificationTimeExpiry i => some fun s => finishEvent (qualify i s)
  | .deferredRequestTake => some deferredTake
  | .supplyMeasurement v => some (supplyMeasured v)
  | .latchHeldStart a => some fun s => finishEvent (heldStart a s)
  | .latchDriveLimit a => some fun s => finishEvent (driveLimit a s)
  | .releasePulseEnd => some fun s => finishEvent (pulseEnd s)
  | .releaseIntervalEnd => some intervalEnd
  | .hallEdge d g => some fun s => finishEvent (hallEdge d g s)
  | .stallTimeout d => some fun s => finishEvent (stallTimeout d s)
  | .noPulses d => some fun s => finishEvent (noPulses d s)
  | .runLimit d => some fun s => finishEvent (runLimit d s)
  | .coastEnd d => some fun s => finishEvent (coastEnd d s)
  | .motorStart d => some fun s => finishEvent (motorStart d s)
  | .retainedPowerExpiry => some retainedExpiry
  | .speedStale => some speedStale
  | .silenceTimerExpiry => some silenceExpiry
  | .relockTimerExpiry => some relockExpiry
  | .continuePointExpiry u => some (continueExpiry u)
  | .holdTimerExpiry u => some (holdExpiry u)
  | .pauseEnd => some pauseEnd
  | .engineChoice => some engineChoice
  | _ => none

theorem exec_ownerOf {c : Instr} {f : State → State} (h : ownerOf c = some f) :
    ∃ n, ∀ s, exec c s = hostRequest n f s := by
  cases c <;> first
    | (cases h; exact ⟨_, fun _ => rfl⟩)
    | cases h

theorem exec_eventOf {c : Instr} {f : State → State} (h : eventOf c = some f) (s : State) :
    exec c s = event f s := by
  cases c <;> first
    | (cases h; rfl)
    | cases h

/-- A command is a request, an event, a transaction told by its bytes, or reaches a part held in a reset. -/
inductive Form : Instr → Prop
  | request {c : Instr} {f : State → State} (h : ownerOf c = some f) : Form c
  | event {c : Instr} {f : State → State} (h : eventOf c = some f) : Form c
  | read (n : Nat) : Form (.read n)
  | badFrame (bytes : List Byte) : Form (.badFrameReply bytes)
  | overrun (bytes : List Byte) : Form (.overrun bytes)
  | powerOn : Form .powerOnReset
  | lowVoltage (v : Nat) : Form (.lowVoltageReset v)
  | restart : Form .partRestart
  | wire (x : RawChange) : Form (.rawInputChange x)

theorem form (c : Instr) : Form c := by
  cases c with
  | read n => exact .read n
  | badFrameReply bytes => exact .badFrame bytes
  | overrun bytes => exact .overrun bytes
  | powerOnReset => exact .powerOn
  | lowVoltageReset v => exact .lowVoltage v
  | partRestart => exact .restart
  | rawInputChange x => exact .wire x
  | _ => first
    | exact .request rfl
    | exact .event rfl

/-! ### Requests told by their bytes -/

/-- What a frame may be handed to: an owner, or an answer of the Link Interface itself. -/
inductive Handed (f : State → State) : Prop
  | owner {c : Instr} (h : ownerOf c = some f)
  | badArgument (h : f = ready (reply .badArgument []))
  | unknown (h : f = reply .unknown [])

theorem apertureCommand_handed (p : List Byte) : Handed (apertureCommand p) := by
  unfold apertureCommand
  dsimp only
  split
  · exact .owner (c := .apertureCommandLock _) rfl
  · exact .owner (c := .apertureCommandUnlock _) rfl
  · exact .owner (c := .apertureCommandDeadlock _) rfl
  · exact .owner (c := .apertureCommandChildOn _) rfl
  · exact .owner (c := .apertureCommandChildOff _) rfl
  · exact .owner (c := .apertureCommandWindowOpen _) rfl
  · exact .owner (c := .apertureCommandWindowClose _) rfl
  · exact .owner (c := .apertureCommandWindowTo _ _) rfl
  · exact .owner (c := .windowStop _) rfl
  · exact .owner (c := .apertureCommandTailgateRelease _) rfl
  · exact .badArgument rfl

theorem runResolve_handed (p : List Byte) : Handed (runResolve p) := by
  unfold runResolve
  split
  · exact .owner (c := .runResolveRetry _) rfl
  · exact .owner (c := .runResolveAbandon _) rfl
  · exact .badArgument rfl

theorem dispatch_handed (code : Nat) (p : List Byte) : Handed (dispatch code p) := by
  unfold dispatch
  dsimp only
  split
  · exact .owner (c := .deviceStatus) rfl
  · exact .owner (c := .deviceStatusClear) rfl
  · exact .owner (c := .reset) rfl
  · exact .owner (c := .park) rfl
  · exact .owner (c := .vehicleState _ _) rfl
  · exact .owner (c := .attentionRead) rfl
  · exact .owner (c := .attentionMask _) rfl
  · exact .owner (c := .settingsRead) rfl
  · exact .owner (c := .settingsWrite _ _ _ _ _ _ _) rfl
  · exact .owner (c := .keyLookup _) rfl
  · exact .owner (c := .keyFind _) rfl
  · exact .owner (c := .keyEnroll _ _ _ _ _ _ _ _) rfl
  · exact .owner (c := .keyProfile _ _ _ _) rfl
  · exact .owner (c := .keyRole _ _) rfl
  · exact .owner (c := .keySuspend _) rfl
  · exact .owner (c := .keyResume _) rfl
  · exact .owner (c := .keyRevoke _) rfl
  · exact .owner (c := .enrollOpen) rfl
  · exact .owner (c := .apertureRead _) rfl
  · exact apertureCommand_handed p
  · exact .owner (c := .windowSetup _ _ _) rfl
  · exact .owner (c := .windowRelearn _) rfl
  · exact .owner (c := .stepRead _) rfl
  · exact .owner (c := .stepWrite _ _ _ _ _ _ _) rfl
  · exact .owner (c := .triggerRead _) rfl
  · exact .owner (c := .triggerWrite _ _ _ _ _ _) rfl
  · exact .owner (c := .chainsDefault) rfl
  · exact .owner (c := .triggerFire _ _ _) rfl
  · exact .owner (c := .runStatus) rfl
  · exact runResolve_handed p
  · exact .owner (c := .clearCrash) rfl
  · exact .unknown rfl

/-! ### What is kept -/

/-- An operation keeps a predicate of the state. -/
def Keeps (P : State → Prop) (f : State → State) : Prop := ∀ s, P s → P (f s)

/-- The predicate does not speak of the link, the Supervision Unit or the arming mark, all that a frame's arrival and a
reply touch. -/
def FreeOfLink (P : State → Prop) : Prop :=
  ∀ (s : State) (l : Link) (x : Supervision) (b : Bool), P s →
    P { s with link := l, sup := x, engine := { s.engine with armed := b } }

section
variable {P : State → Prop} (free : FreeOfLink P)
include free

theorem FreeOfLink.link {s : State} (h : P s) (l : Link) : P { s with link := l } := free s l s.sup s.engine.armed h

theorem FreeOfLink.sup {s : State} (h : P s) (l : Link) (x : Supervision) : P { s with link := l, sup := x } :=
  free s l x s.engine.armed h

theorem FreeOfLink.wake {s : State} (h : P s) (w : WakeSource) : P (wake w s) := by
  rw [wake_eq]; exact free.sup h _ _

theorem FreeOfLink.validFrame {s : State} (h : P s) : P (validFrame s) := by
  have r : P (returnToActive s) := by
    unfold returnToActive
    split
    · exact free s _ _ _ h
    · exact h
  exact free.sup r _ _

theorem FreeOfLink.heard {s : State} (h : P s) (n : Nat) : P (heard n s) :=
  free.validFrame (free.link (free.wake h _) _)

theorem FreeOfLink.taken {s : State} (h : P s) (n : Nat) : P (taken n s) := free.sup (free.heard h n) _ _

theorem FreeOfLink.reply {s : State} (h : P s) (st : Status) (p : List Byte) : P (reply st p s) := free.link h _

theorem FreeOfLink.raise {s : State} (h : P s) (f : AttentionFlag) : P (raise f s) := free.link h _

theorem FreeOfLink.ready {f : State → State} (h : ∀ s, s.store.scanDone = true → P s → P (f s)) :
    Keeps P (ready f) := by
  intro s k
  unfold Machine.ready
  split
  · next d => exact h s d k
  · exact free.reply k _ _

theorem FreeOfLink.needs {α : Type} {x : Option α} {f : α → State → State} {s : State} (k : P s)
    (h : ∀ a, P (f a s)) : P (needs x f s) := by
  cases x with
  | none => exact free.reply k _ _
  | some a => exact h a

variable (owners : ∀ c f, ownerOf c = some f → Keeps P f)
include owners

theorem dispatch_keeps (code : Nat) (p : List Byte) : Keeps P (dispatch code p) := by
  obtain @⟨c, h⟩ | h | h := dispatch_handed code p
  · exact owners c _ h
  · rw [h]; exact free.ready fun _ _ k => free.reply k _ _
  · rw [h]; exact fun _ k => free.reply k _ _

theorem judgeFrame_keeps (bs : List Byte) : Keeps P (judgeFrame bs) := by
  unfold judgeFrame
  split
  · exact fun _ k => free.reply k _ _
  · dsimp only
    split
    · exact fun _ k => free.reply k _ _
    · split
      · exact dispatch_keeps free owners _ _
      · exact fun _ k => free.reply k _ _

theorem requestTransaction_keeps (bs : List Byte) : Keeps P (requestTransaction bs) := by
  intro s k
  have a : P (driveHigh bs.length (wake .link s)) := free.link (free.wake k _) _
  have b : P (if intact bs = true then validFrame (driveHigh bs.length (wake .link s))
      else driveHigh bs.length (wake .link s)) := by
    split
    · exact free.validFrame a
    · exact a
  unfold requestTransaction
  dsimp only
  split
  · exact free.link b _
  · exact judgeFrame_keeps free owners bs _ (free.sup b _ _)

omit owners in
/-- A reply read keeps what a link reset keeps, where one is pending. -/
theorem readTransaction_keeps (n : Nat) {s : State} (k : P s)
    (reset : s.sup.pendingReset = true → Keeps P linkReset) : P (readTransaction n s) := by
  unfold readTransaction
  split
  · dsimp only
    split
    · next pending => exact reset pending _ (free.link k _)
    · exact free.link k _
  · exact free.link (free.wake k _) _

theorem transaction_keeps (bs : List Byte) {s : State} (k : P s)
    (reset : s.sup.pendingReset = true → Keeps P linkReset) : P (transaction bs s) := by
  cases bs with
  | nil => exact requestTransaction_keeps free owners [] s k
  | cons b rest =>
    unfold transaction
    dsimp only
    split
    · exact readTransaction_keeps free _ k reset
    · exact requestTransaction_keeps free owners _ s k

omit free owners in
theorem event_keeps {f : State → State} {s t : State} (k : P s) (h : P (f s)) (e : event f s = .next t) : P t := by
  unfold event at e
  cases e
  split
  · exact h
  · exact k

omit owners in
theorem hostRequest_keeps {n : Nat} {f : State → State} (h : Keeps P f) {s t : State} (k : P s)
    (e : hostRequest n f s = .next t) : P t := by
  refine event_keeps k ?_ e
  unfold requestFrame
  split
  · exact free.link (free.heard k n) _
  · exact h _ (free.taken k n)

end

/-- What every owner, every event, every reset, the restart and every wire keep, every command keeps. -/
theorem exec_keeps {P : State → Prop} (free : FreeOfLink P) (owners : ∀ c f, ownerOf c = some f → Keeps P f)
    (events : ∀ c f, eventOf c = some f → Keeps P f) (resets : ∀ p cause, Keeps P (afterReset p cause))
    (power : ∀ p, Keeps P fun s => { s with power := p }) (clocks : Keeps P startClocks)
    (wires : ∀ x, Keeps P (rawChange x)) {c : Instr} {s t : State} (k : P s) (e : exec c s = .next t) : P t := by
  have link : Keeps P linkReset := fun s k => resets _ _ s k
  cases form c with
  | request h =>
    obtain ⟨n, m⟩ := exec_ownerOf h
    exact hostRequest_keeps free (owners _ _ h) k ((m s).symm.trans e)
  | event h => exact event_keeps k (events _ _ h s k) ((exec_eventOf h s).symm.trans e)
  | read n => exact event_keeps k (readTransaction_keeps free n k fun _ => link) e
  | badFrame bytes => exact event_keeps k (transaction_keeps free owners bytes k fun _ => link) e
  | overrun bytes => exact event_keeps k (transaction_keeps free owners bytes k fun _ => link) e
  | powerOn => cases e; exact resets _ _ s k
  | lowVoltage v =>
    cases e
    unfold lowVoltage
    split
    · exact k
    · dsimp only
      split
      · exact resets _ _ s k
      · exact power _ s k
      · exact k
  | restart =>
    cases e
    unfold partRestart
    split
    · exact clocks _ (power _ s k)
    · exact k
    · exact k
  | wire x => cases e; exact wires x s k

/-- What every command and the passing of time keep, every step keeps. -/
theorem step_keeps {P : State → Prop} (commands : ∀ c s t, P s → exec c s = .next t → P t)
    (queue : ∀ l, Keeps P fun s => { s with pending := l }) (time : Keeps P fun s => { s with now := s.now + 1 })
    {s t : State} (k : P s) (e : step s = .next t) : P t := by
  unfold step at e
  split at e
  · cases e; exact time s k
  · exact commands _ _ _ (queue _ s k) e

end Sys2Proof.Machine

/-! The step, the resets and the link's simplest answers. -/

namespace Sys2Proof.Machine

open Sys2Proof

/-- Settles O1. -/
theorem stepTakesTheFrontCommand : Obligations.StepTakesTheFrontCommand := by
  refine ⟨fun c rest s queued => ?_, fun s empty => ?_⟩
  · simp only [step, queued]
  · simp only [step, empty]

/-- Settles O4: every other command is an event of a part that runs. -/
theorem partHeldInResetTakesNothing : Obligations.PartHeldInResetTakesNothing := by
  intro c s held power low restart raw
  have stopped : reachesHeld c = false := by
    cases c <;> first
      | rfl
      | exact absurd rfl power
      | exact absurd rfl (low _)
      | exact absurd rfl restart
      | exact absurd rfl (raw _)
  obtain ⟨f, meaning⟩ := exec_event stopped
  rw [meaning, event_held f held]

/-! ### What a reset leaves -/

theorem afterReset_latch (p : Power) (c : ResetCause) (s : State) (a : Aperture) :
    latchAt (afterReset p c s) a = { LatchUnit.reset with restFrom := s.now } := by cases a <;> rfl

theorem afterReset_child (p : Power) (c : ResetCause) (s : State) (r : Rear) :
    childAt (afterReset p c s) r = ⟨false, false, false⟩ := by cases r <;> rfl

theorem afterReset_window (p : Power) (c : ResetCause) (s : State) (d : Door) :
    windowAt (afterReset p c s) d = Window.reset := by cases d <;> rfl

theorem look_replicate {α : Type} {n : Nat} (x : α) (i : Fin n) : look (Vector.replicate n x) i = x := by simp [look]

theorem afterReset_key (p : Power) (c : ResetCause) (s : State) (i : Fin 8) :
    keyAt (afterReset p c s) i = KeyRecord.load KeyStored.empty := look_replicate _ i

theorem afterReset_run (p : Power) (c : ResetCause) (s : State) (t : Trigger) : runAt (afterReset p c s) t = none :=
  look_replicate _ _

theorem afterReset_continue (p : Power) (c : ResetCause) (s : State) (t : Trigger) :
    continueAt (afterReset p c s) t = none := look_replicate _ _

theorem afterReset_refire (p : Power) (c : ResetCause) (s : State) (t : Trigger) :
    refireAt (afterReset p c s) t = none := look_replicate _ _

/-- Settles O5: field by field, and table by table. -/
theorem anyResetLeavesTheValuesAfterReset : Obligations.AnyResetLeavesTheValuesAfterReset := by
  refine ⟨fun p cause s => ?values, fun p cause s => ?inputs⟩
  case values =>
    refine ⟨⟨rfl, rfl, rfl, rfl, rfl, rfl⟩, ⟨rfl, rfl, rfl, rfl, rfl,
      attn_eq_false_of_flags_eq_zero (afterReset_link_flags p cause s), rfl⟩, ⟨rfl, fun i => ?_⟩,
      ⟨rfl, rfl, rfl, rfl, rfl⟩, ⟨rfl, rfl, rfl, rfl, rfl, rfl, rfl⟩, fun a => ?_, fun r => ?_,
      ⟨rfl, rfl, rfl, rfl, rfl⟩, fun d => ?_,
      fun u => ⟨afterReset_run p cause s u, afterReset_continue p cause s u, afterReset_refire p cause s u⟩,
      ⟨rfl, rfl, rfl⟩, rfl, rfl, rfl, rfl, rfl⟩
    · rw [afterReset_key]; exact ⟨rfl, rfl, rfl, rfl⟩
    · rw [afterReset_latch]; exact ⟨rfl, rfl, rfl, rfl, rfl, rfl⟩
    · rw [afterReset_child]; exact ⟨rfl, rfl, rfl⟩
    · rw [afterReset_window]; exact ⟨rfl, rfl, rfl, rfl, rfl, rfl, rfl, rfl, rfl, rfl⟩
  case inputs =>
    refine ⟨fun a => ?_, fun a => ?_, fun x => ?_, rfl, fun w => ?_⟩
    · cases a <;> exact ⟨rfl, rfl, rfl⟩
    · cases a <;> exact ⟨rfl, rfl⟩
    · cases x <;> rfl
    · cases w with
      | pack d => cases d <;> rfl
      | rearDoor r => cases r <;> rfl
      | passenger => rfl

/-- Settles O6. -/
theorem resetsSetTheirCauses : Obligations.ResetsSetTheirCauses := by
  refine ⟨fun s => rfl, fun v s runs low high => ?_, fun v s runs low => ?_, fun n r s runs held pending => ?_,
    fun s stopped => ?_⟩
  · show Host.Outcome.next (lowVoltage v s) = _
    simp only [lowVoltage, if_neg (by omega : ¬5500 ≤ v), if_neg (by omega : ¬v < 2500), runs]
  · show Host.Outcome.next (lowVoltage v s) = _
    simp only [lowVoltage, if_neg (by omega : ¬5500 ≤ v), if_pos low, runs]
  · refine (event_running _ runs).trans ?_
    simp only [readTransaction, held, pending, if_true]
    rfl
  · refine ⟨_, rfl, ?_⟩
    simp only [partRestart, stopped]
    exact ⟨rfl, rfl, rfl, rfl, rfl⟩

/-- Settles O7: the draw decides among the three. -/
theorem resetTearsOnlyTheWriteInFlight : Obligations.ResetTearsOnlyTheWriteInFlight := by
  intro p cause s
  have torn : (afterReset p cause s).store.flash = tornStore s := rfl
  rw [torn]
  refine ⟨fun none => by simp only [tornStore, none], fun e flight => ?_⟩
  simp only [tornStore, flight]
  split
  · exact .inl rfl
  · exact .inr (.inl rfl)
  · exact .inr (.inr rfl)

/-- Settles O15. -/
theorem wakeSourcesWakeOnlyAParkedPart : Obligations.WakeSourcesWakeOnlyAParkedPart := by
  intro w s
  refine ⟨fun up => if_neg up, fun parked => ?_⟩
  have woken : wake w s = restartSilence (raise .wake { s with sup := { s.sup with
      mode := .active, wakeCauses := s.sup.wakeCauses ||| wakeMask w, wakeout := true } }) := if_pos parked
  rw [woken]
  exact ⟨raised_raise .wake _, rfl⟩

/-- Settles O10: the reply held is sent and leaves, or BUSY is sent and the link stays as it is. -/
theorem readSendsTheHeldReplyOrBusy : Obligations.ReadSendsTheHeldReplyOrBusy := by
  refine ⟨fun n r s runs held kept => ?_, fun n s runs none => ?_⟩
  · refine (event_running _ runs).trans ?_
    simp [readTransaction, held, kept]
  · refine ⟨_, event_running _ runs, ?_⟩
    have busy : readTransaction n s =
        { wake .link s with link := { (wake .link s).link with dataOut := clockedOut busyFrame n } } := by
      unfold readTransaction
      split
      · next r held => exact absurd held (none r)
      · rfl
    rw [busy]
    refine ⟨wake_link_state .link s, rfl, wake_mode .link s, fun up => ?_⟩
    rw [(wakeSourcesWakeOnlyAParkedPart .link s).1 up]
    exact ⟨rfl, rfl⟩

/-! ### The invariants at reset -/

theorem windowAt_reset (d : Door) : windowAt State.reset d = Window.reset := by cases d <;> rfl

theorem latchAt_reset (a : Aperture) : latchAt State.reset a = LatchUnit.reset := by cases a <;> rfl

theorem runAt_reset (t : Trigger) : runAt State.reset t = none := look_replicate _ _

theorem crashInvariant_reset : crashInvariant State.reset := by
  refine ⟨fun _ => rfl, fun a => ?_, fun d => ?_, fun _ => ⟨fun a => ?_, fun d => ?_⟩⟩
  · rw [latchAt_reset]; exact ⟨fun d drives => (nomatch drives), fun h held => (nomatch held)⟩
  · rw [windowAt_reset]; exact ⟨fun m some => (nomatch some), fun m some => (nomatch some)⟩
  · rw [latchAt_reset]; exact fun d drives => nomatch drives
  · rw [windowAt_reset]; exact fun runs => nomatch runs

theorem engineInvariant_reset : engineInvariant State.reset := by
  refine ⟨fun t u r x h => ?_, fun t u r x h => ?_⟩
  · rw [runAt_reset] at h; cases h
  · rw [runAt_reset] at h; cases h

theorem settled_reset : Settled State.reset := by
  have idle : activeTrigger State.reset = none := activeTrigger_none.2 fun t r h => by
    rw [runAt_reset] at h; cases h
  exact ⟨rfl, by simp only [engineMove, idle]⟩

theorem bounded_reset : bounded State.reset := by
  refine ⟨Nat.zero_le _, fun i => ?_, Nat.zero_le _, fun a => ?_, fun d => ?_⟩
  · rw [show keyAt State.reset i = KeyRecord.load KeyStored.empty from look_replicate _ i]
    exact Nat.zero_le _
  · rw [latchAt_reset]; exact Nat.le_refl _
  · rw [windowAt_reset]
    exact ⟨fun l none => (nomatch none), fun known => (nomatch known), Nat.zero_le _, fun m none => (nomatch none)⟩

theorem keysInvariant_reset : keysInvariant State.reset := by
  have unused : ∀ i, usable (receivedKey Flash.erased i) = false := by decide
  refine .afresh rfl rfl fun i j _ both => ?_
  obtain ⟨n, ⟨used, _⟩, _⟩ := both
  rw [unused i] at used
  cases used

/-- Settles O26. -/
theorem invariantsStandAtReset : Obligations.InvariantsStandAtReset := by
  refine ⟨⟨crashInvariant_reset, fun s stands hold => ?_⟩, engineInvariant_reset, settled_reset, bounded_reset,
    keysInvariant_reset⟩
  obtain ⟨_, _, _, held⟩ := stands
  obtain ⟨unlocks, opens⟩ := held hold
  refine ⟨fun a x drives => ?_, fun d closing => ?_⟩
  · obtain ⟨v, some, rfl⟩ := Option.map_eq_some_iff.1 drives
    exact unlocks a v some
  · unfold motor at closing
    dsimp only at closing
    split at closing
    · next runs =>
      obtain ⟨m, some, toClosed⟩ := Option.map_eq_some_iff.1 closing
      have toOpen := opens d runs m some
      rw [toClosed] at toOpen
      cases toOpen
    · cases closing

/-- Settles O47: the score rises where the excess exceeds the threshold, and is halved elsewhere. -/
theorem scoresRiseAndForget : Obligations.ScoresRiseAndForget := by
  intro score e level inScore inExcess inLevel
  have rises : ∀ x, 8 + 4 * level < e → nextScore x e (8 + 4 * level) = min 1023 (x + (e - (8 + 4 * level))) :=
    fun x h => if_pos h
  have forgets : ∀ x, e ≤ 8 + 4 * level → nextScore x e (8 + 4 * level) = x / 2 := fun x h => if_neg (by omega)
  refine ⟨?_, rises score, forgets score, ?_⟩
  · by_cases h : 8 + 4 * level < e
    · rw [rises score h]; omega
    · rw [forgets score (by omega)]; omega
  · by_cases h : 8 + 4 * level < e
    · rw [rises 0 h]; omega
    · rw [forgets 0 (by omega)]; omega

end Sys2Proof.Machine

/-! The tables and the slow state (13, R190): each has its own commands, and the queue of commands is no command's to
change. -/

namespace Sys2Proof.Machine

open Sys2Proof

/-- What a command leaves as it was: the queue of commands, and each table that is not its own. -/
def KeptBy (c : Instr) (s t : State) : Prop :=
  t.pending = s.pending ∧
  (changesKeys c = false → t.keys.recs = s.keys.recs) ∧
  (c ≠ .park → c ≠ .searchComplete → c ≠ .enrollWindowExpiry → t.keys.window = s.keys.window) ∧
  ((∀ d a v w r p n, c ≠ .settingsWrite d a v w r p n) → c ≠ .scanComplete →
    t.link.settings = s.link.settings) ∧
  ((∀ m, c ≠ .attentionMask m) → t.link.mask = s.link.mask) ∧
  (changesChains c = false → t.engine.steps = s.engine.steps ∧ t.engine.triggers = s.engine.triggers) ∧
  (c ≠ .storeWriteComplete → t.store.flash = s.store.flash) ∧
  (c ≠ .scanComplete → t.store.scanDone = s.store.scanDone) ∧
  (c ≠ .deviceStatusClear → t.sup.resetCause = s.sup.resetCause) ∧
  ((∀ v m, c ≠ .vehicleState v m) → t.vehicle.speed = s.vehicle.speed ∧ t.vehicle.taken = s.vehicle.taken ∧
    t.vehicle.powerMode = s.vehicle.powerMode) ∧
  ((∀ mv, c ≠ .supplyMeasurement mv) → t.vehicle.supply = s.vehicle.supply ∧
    t.vehicle.supplyHold = s.vehicle.supplyHold) ∧
  ((∀ b, c ≠ .rfFrameArrival b) → c ≠ .frameTake → t.entry.rfQueue = s.entry.rfQueue) ∧
  (c ≠ .clearCrash → c ≠ .scanComplete → c ≠ .qualificationTimeExpiry .crashLine →
    t.latches.crashHold = s.latches.crashHold) ∧
  (c ≠ .releasePulseEnd → c ≠ .releaseIntervalEnd → t.latches.interval = s.latches.interval)

theorem KeptBy.of_tables {s t : State} (c : Instr) (h : SameTables s t) : KeptBy c s t := by
  simp only [SameTables] at h
  simp [KeptBy, h]

/-- The tables a command starts from may be read before or after what leaves them all as they were. -/
theorem KeptBy.after {c : Instr} {s x t : State} (h : SameTables s x) (k : KeptBy c x t) : KeptBy c s t := by
  simp only [SameTables] at h
  simpa only [KeptBy, h] using k

theorem KeptBy.before {c : Instr} {s x t : State} (k : KeptBy c s x) (h : SameTables x t) : KeptBy c s t := by
  simp only [SameTables] at h
  simpa only [KeptBy, h] using k

theorem KeptBy.trans {c : Instr} {s x t : State} (h : KeptBy c s x) (k : KeptBy c x t) : KeptBy c s t := by
  obtain ⟨a1, a2, a3, a4, a5, a6, a7, a8, a9, a10, a11, a12, a13, a14⟩ := h
  obtain ⟨b1, b2, b3, b4, b5, b6, b7, b8, b9, b10, b11, b12, b13, b14⟩ := k
  exact ⟨b1.trans a1, fun e => (b2 e).trans (a2 e), fun e f g => (b3 e f g).trans (a3 e f g),
    fun e f => (b4 e f).trans (a4 e f), fun e => (b5 e).trans (a5 e),
    fun e => ⟨(b6 e).1.trans (a6 e).1, (b6 e).2.trans (a6 e).2⟩, fun e => (b7 e).trans (a7 e),
    fun e => (b8 e).trans (a8 e), fun e => (b9 e).trans (a9 e),
    fun e => ⟨(b10 e).1.trans (a10 e).1, (b10 e).2.1.trans (a10 e).2.1, (b10 e).2.2.trans (a10 e).2.2⟩,
    fun e => ⟨(b11 e).1.trans (a11 e).1, (b11 e).2.trans (a11 e).2⟩, fun e f => (b12 e f).trans (a12 e f),
    fun e f g => (b13 e f g).trans (a13 e f g), fun e f => (b14 e f).trans (a14 e f)⟩

/-- An operation of a command keeps the tables that are not the command's own. -/
def KeepsTables (c : Instr) (f : State → State) : Prop := ∀ s, KeptBy c s (f s)

theorem KeepsTables.of_tables (c : Instr) {f : State → State} (h : ∀ s, SameTables s (f s)) : KeepsTables c f :=
  fun s => .of_tables c (h s)

theorem reply_tables (st : Status) (p : List Byte) (s : State) : SameTables s (reply st p s) := by simp

theorem KeepsTables.reply (c : Instr) (st : State → Status) (p : State → List Byte) :
    KeepsTables c fun s => reply (st s) (p s) s := fun s => .of_tables c (reply_tables _ _ s)

theorem KeepsTables.ready {c : Instr} {f : State → State} (h : KeepsTables c f) : KeepsTables c (ready f) := by
  intro s
  unfold Machine.ready
  split
  · exact h s
  · exact .of_tables c (reply_tables _ _ s)

theorem KeepsTables.needs {c : Instr} {α : Type} {x : Option α} {f : α → State → State} (h : ∀ a, KeepsTables c (f a)) :
    KeepsTables c (needs x f) := by
  intro s
  cases x with
  | none => exact .of_tables c (reply_tables _ _ s)
  | some a => exact h a s

/-! ### The units' owners -/

theorem replyResult_tables (r : Result) (p : List Byte) (s : State) : SameTables s (replyResult r p s) :=
  reply_tables _ _ s

theorem finishEvent_tables (s : State) : SameTables s (finishEvent s) := by simp

theorem replyLatch_tables (x : Answer) (s : State) : SameTables s (replyLatch x s) := by
  cases x <;> exact reply_tables _ _ s

theorem takeHostLatch_tables (x : HeldTarget) (a : Aperture) (s : State) : SameTables s (takeHostLatch x a s) := by
  unfold takeHostLatch
  split
  · exact reply_tables _ _ s
  · have h := replyLatch_tables (requestLatch a x .link [] s).2 (finishEvent (requestLatch a x .link [] s).1)
    simpa using h

theorem replyWindow_tables (x : WindowAnswer) (s : State) : SameTables s (replyWindow x s) := by
  cases x <;> exact reply_tables _ _ s

theorem takeHostMove_tables (d : Door) (m : Movement) (s : State) : SameTables s (takeHostMove d m s) := by
  have h := replyWindow_tables (requestMovement d m s).2 (finishEvent (requestMovement d m s).1)
  simpa [takeHostMove] using h

theorem takeWindowTo_tables (p : Nat) (d : Door) (s : State) : SameTables s (takeWindowTo p d s) := by
  unfold takeWindowTo
  dsimp only
  split
  · exact takeHostMove_tables _ _ s
  · exact replyWindow_tables _ s

theorem takeWindowStop_tables (d : Door) (s : State) : SameTables s (takeWindowStop d s) := by
  unfold takeWindowStop
  dsimp only
  split
  · exact reply_tables _ _ s
  · split
    · simp [replyResult]
    · exact reply_tables _ _ s

theorem takeWindowSetup_tables (l : Nat) (b : Bool) (d : Door) (s : State) : SameTables s (takeWindowSetup l b d s) := by
  unfold takeWindowSetup
  dsimp only
  split
  · split <;> simp [replyResult]
  · simp [replyResult]

theorem takeWindowRelearn_tables (d : Door) (s : State) : SameTables s (takeWindowRelearn d s) := by
  unfold takeWindowRelearn
  dsimp only
  split <;> simp [replyResult]

theorem onWindow_tables {a : Aperture} {f : Door → State → State} (h : ∀ d s, SameTables s (f d s)) (s : State) :
    SameTables s (onWindow a f s) := by
  unfold onWindow
  split
  · exact reply_tables _ _ s
  · exact h _ s

/-! ### The engine's owners -/

theorem takeTriggerFire_tables (i : Fin 64) (p : Nat) (a : Aperture) (s : State) :
    SameTables s (takeTriggerFire i p a s) := by
  unfold takeTriggerFire
  split <;> simp

theorem resolve_tables {t : Trigger} {f : Run → State → State} (h : ∀ r s, SameTables s (f r s)) (s : State) :
    SameTables s (resolve t f s) := by
  unfold resolve
  split
  · exact reply_tables _ _ s
  · split
    · next r _ _ =>
      have k := h r s
      simpa using k
    · exact reply_tables _ _ s

theorem retryRun_tables (t : Trigger) (r : Run) (s : State) : SameTables s (retryRun t r s) := by simp [retryRun]

/-! ### The owners of tables -/

theorem enterParked_kept : KeepsTables .park fun s => reply .ok [] (enterParked s) := by
  intro s
  simp [KeptBy, enterParked]

theorem changePower_tables (p : PowerMode) (s : State) :
    SameTables { s with vehicle := { s.vehicle with powerMode := p } } (changePower p s) := by
  unfold changePower
  dsimp only
  split
  · next same => simp [same]
  · split <;> simp

theorem takeVehicleState_kept (v : BitVec 16) (b : Byte) (n : Nat) (p : PowerMode) :
    KeepsTables (.vehicleState v b) (takeVehicleState n p) := by
  intro s
  have h := changePower_tables p
    { s with vehicle := { s.vehicle with speed := min 255 n, taken := some s.now, discard := false } }
  simp only [SameTables] at h
  unfold takeVehicleState
  dsimp only
  split <;> simp [KeptBy, h]

theorem changeSettings_kept (d a v w r p n : Byte) (x : Settings) :
    KeepsTables (.settingsWrite d a v w r p n) (changeSettings x) := by
  intro s
  unfold changeSettings
  dsimp only
  split <;> split <;> refine ⟨?_, ?_, ?_, fun other => absurd rfl (other d a v w r p n), ?_⟩ <;> simp

theorem beginChange_kept {c : Instr} (own : changesKeys c = true) (i : Fin 8) (k : KeyChange) :
    KeepsTables c (beginChange i k) := by
  intro s
  unfold beginChange
  split
  · exact .of_tables c (reply_tables _ _ s)
  · split
    · exact .of_tables c (reply_tables _ _ s)
    · simp [KeptBy, own, setKey]

theorem requestChange_kept {c : Instr} (own : changesKeys c = true) (i : Fin 8) (k : KeyChange) :
    KeepsTables c (requestChange i k) := by
  intro s
  unfold requestChange
  split
  · exact beginChange_kept own i k s
  · exact .of_tables c (by simp)

theorem persistDefault_kept (c : Instr) (n : Nat) : KeepsTables c (persistDefault n) := by
  intro s
  unfold persistDefault
  split <;> simp [KeptBy]

/-- Every owner keeps the tables that are not its own. -/
theorem owner_keepsTables {c : Instr} {f : State → State} (h : ownerOf c = some f) : KeepsTables c f := by
  cases c <;> try cases h
  case deviceStatus => exact .reply _ _ _
  case deviceStatusClear => exact .ready fun s => by simp [KeptBy]
  case reset => exact .ready (.of_tables _ fun s => by simp)
  case park =>
    refine .ready fun s => ?_
    split
    · exact enterParked_kept s
    · exact .of_tables _ (reply_tables _ _ s)
  case vehicleState v b =>
    refine .ready (.needs fun p s => ?_)
    have h := takeVehicleState_kept v b v.toNat p s
    exact h.before (by simp)
  case attentionRead => exact .ready (.of_tables _ fun s => by simp)
  case attentionMask m => exact .ready fun s => by simp [KeptBy]
  case settingsRead => exact .ready (.reply _ _ _)
  case settingsWrite =>
    refine .ready (.needs fun x => .needs fun y s => ?_)
    unfold takeSettings
    split
    · exact .of_tables _ (reply_tables _ _ s)
    · exact changeSettings_kept _ _ _ _ _ _ _ _ s
  case keyLookup => exact .ready (.needs fun i => .reply _ _ _)
  case keyFind =>
    refine .ready (.of_tables _ fun s => ?_)
    split <;> exact reply_tables _ _ s
  case keyEnroll => exact .ready (.needs fun i => .needs fun r => .needs fun p => requestChange_kept rfl i _)
  case keyProfile => exact .ready (.needs fun i => .needs fun p => requestChange_kept rfl i _)
  case keyRole => exact .ready (.needs fun i => .needs fun r => requestChange_kept rfl i _)
  case keySuspend => exact .ready (.needs fun i => requestChange_kept rfl i _)
  case keyResume => exact .ready (.needs fun i => requestChange_kept rfl i _)
  case keyRevoke => exact .ready (.needs fun i => requestChange_kept rfl i _)
  case enrollOpen => exact .ready (.of_tables _ fun s => by simp)
  case apertureRead => exact .ready (.needs fun l => .reply _ _ _)
  case apertureCommandLock => exact .ready (.needs fun a => .of_tables _ (takeHostLatch_tables _ a))
  case apertureCommandUnlock => exact .ready (.needs fun a => .of_tables _ (takeHostLatch_tables _ a))
  case apertureCommandDeadlock => exact .ready (.needs fun a => .of_tables _ (takeHostLatch_tables _ a))
  case apertureCommandChildOn => exact .ready (.needs fun a => .of_tables _ (takeHostLatch_tables _ a))
  case apertureCommandChildOff => exact .ready (.needs fun a => .of_tables _ (takeHostLatch_tables _ a))
  case apertureCommandTailgateRelease => exact .ready (.needs fun a => .of_tables _ (takeHostLatch_tables _ a))
  case apertureCommandWindowOpen =>
    exact .ready (.needs fun a => .of_tables _ (onWindow_tables fun d => takeHostMove_tables d _))
  case apertureCommandWindowClose =>
    exact .ready (.needs fun a => .of_tables _ (onWindow_tables fun d => takeHostMove_tables d _))
  case apertureCommandWindowTo =>
    exact .ready (.needs fun a => .needs fun p => .of_tables _ (onWindow_tables (takeWindowTo_tables p)))
  case windowStop => exact .ready (.needs fun a => .of_tables _ (onWindow_tables takeWindowStop_tables))
  case windowSetup => exact .ready (.needs fun d => .needs fun x => .of_tables _ (takeWindowSetup_tables _ x d))
  case windowRelearn => exact .ready (.needs fun d => .of_tables _ (takeWindowRelearn_tables d))
  case stepRead => exact .ready (.needs fun i => .reply _ _ _)
  case stepWrite i a x g r f n =>
    have own : changesChains (.stepWrite i a x g r f n) = true := rfl
    refine .ready (.needs fun i => .needs fun a => .needs fun x => ?_)
    refine .needs fun g => .needs fun r => .needs fun f => .needs fun n s => ?_
    simp [KeptBy, own, takeStepWrite]
  case triggerRead => exact .ready (.needs fun t => .reply _ _ _)
  case triggerWrite i b p g h c =>
    have own : changesChains (.triggerWrite i b p g h c) = true := rfl
    refine .ready (.needs fun t => .needs fun st => .needs fun g => ?_)
    refine .needs fun h => .needs fun c s => ?_
    simp [KeptBy, own, takeTriggerWrite]
  case chainsDefault =>
    refine .ready fun s => ?_
    have own : changesChains .chainsDefault = true := rfl
    have loaded : KeptBy .chainsDefault s (loadDefaults s) := by simp [KeptBy, own, loadDefaults]
    exact loaded.trans (persistDefault_kept _ 0 _)
  case triggerFire =>
    refine .ready (.needs fun i s => ?_)
    exact KeepsTables.needs (fun a => .of_tables _ (takeTriggerFire_tables i _ a)) s
  case runStatus => exact .ready (.reply _ _ _)
  case runResolveRetry => exact .ready (.needs fun t => .of_tables _ (resolve_tables (retryRun_tables t)))
  case runResolveAbandon =>
    exact .ready (.needs fun t => .of_tables _ (resolve_tables fun _ s => by simp))
  case clearCrash =>
    refine .ready fun s => ?_
    unfold takeClearCrash
    split
    · exact .of_tables _ (reply_tables _ _ s)
    · split
      · exact .of_tables _ (reply_tables _ _ s)
      · simp [KeptBy]

/-! ### The events of entry and store -/

theorem searchStart_tables (s : State) : SameTables s (searchStart s) := by
  unfold searchStart
  split
  · split <;> simp
  · exact .refl s

theorem challengeEnd_tables (s : State) : SameTables s (challengeEnd s) := by
  unfold challengeEnd
  split
  · exact .refl s
  · split <;> simp

theorem rfArrival_kept (b : List Byte) : KeepsTables (.rfFrameArrival b) (rfArrival b) := by
  intro s
  unfold rfArrival
  dsimp only
  split
  · exact .of_tables _ (wake_tables .rf s)
  · unfold offerFrame
    split <;> simp [KeptBy]
  · unfold takeResponse
    split
    · exact .of_tables _ (wake_tables .rf s)
    · split
      · exact .of_tables _ (by simp)
      · exact .of_tables _ (wake_tables .rf s)

theorem judge_kept {c : Instr} (own : changesKeys c = true) (f : StampedFrame) : KeepsTables c (judge f) := by
  intro s
  unfold judge
  split
  · simp [KeptBy]
  · split
    · simp [KeptBy]
    · split
      · simp [KeptBy, own, reject, rejectFrame, writeAccess]
      · simp [KeptBy, own, acceptCounter]

theorem frameTake_kept : KeepsTables .frameTake frameTake := by
  intro s
  unfold frameTake
  split
  · split
    · exact .of_tables _ (.refl s)
    · next f rest _ =>
      have h := judge_kept (c := .frameTake) rfl f { s with entry := { s.entry with rfQueue := rest } }
      simpa [KeptBy] using h
  · exact .of_tables _ (.refl s)

theorem enrollResult_kept (l : List (Fin 8)) : KeepsTables .searchComplete (enrollResult l) := by
  intro s
  unfold enrollResult
  split <;> simp [KeptBy, replyResult]

theorem searchComplete_kept : KeepsTables .searchComplete searchComplete := by
  intro s
  unfold searchComplete
  split
  · exact .of_tables _ (.refl s)
  · next x _ =>
    split
    · dsimp only
      refine .after (x := { clockTo (x.start + Times.searchTime) s with
        entry := { (clockTo (x.start + Times.searchTime) s).entry with search := none } }) (by simp) ?_
      split
      · exact .of_tables _ (by simp)
      · split
        · exact (KeptBy.of_tables _ (foldl_insideResult_tables _ _ _)).before (finishEvent_tables _)
        · exact enrollResult_kept _ _
    · exact .of_tables _ (.refl s)

theorem carryOut_kept (c : Instr) (i : Fin 8) (f : StampedFrame) : KeepsTables c (carryOut i f) := by
  intro s
  unfold carryOut
  dsimp only
  split <;> simp [KeptBy, writeAccess]

theorem counterStored_kept (c : Instr) (i : Fin 8) : KeepsTables c (counterStored i) := by
  intro s
  unfold counterStored
  split
  · split
    · exact carryOut_kept c i _ s
    · exact .of_tables _ (.refl s)
  · exact .of_tables _ (.refl s)

theorem matchResumed_kept {c : Instr} (own : changesKeys c = true) (i : Fin 8) : KeepsTables c (matchResumed i) := by
  intro s
  unfold matchResumed
  split
  · split
    · exact judge_kept own _ s
    · exact .of_tables _ (.refl s)
  · exact .of_tables _ (.refl s)

theorem beginWaiting_kept {c : Instr} (own : changesKeys c = true) (i : Fin 8) : KeepsTables c (beginWaiting i) := by
  intro s
  unfold beginWaiting
  split
  · exact .of_tables _ (.refl s)
  · split
    · exact .after (by simp) (beginChange_kept own i _ _)
    · exact .of_tables _ (.refl s)

theorem clearMarker_kept {c : Instr} (own : changesKeys c = true) (i : Fin 8) : KeepsTables c (clearMarker i) := by
  intro s
  simp [KeptBy, own, clearMarker]

theorem tellWaiter_kept (s : State) (w : WriteWaiter) : KeptBy .storeWriteComplete s (tellWaiter s w) := by
  cases w with
  | counterPersist i =>
    exact ((clearMarker_kept rfl i s).trans (counterStored_kept _ i _)).trans (beginWaiting_kept rfl i _)
  | linkChange i =>
    exact ((clearMarker_kept rfl i s).before (reply_tables .ok [] _)).trans (matchResumed_kept rfl i _)
  | marker d => exact .of_tables _ (.refl s)
  | applied => exact .of_tables _ (reply_tables _ _ s)
  | replyOk => exact .of_tables _ (reply_tables _ _ s)
  | chainsDefault =>
    show KeptBy _ s (match s.engine.defaulting with
      | some n => persistDefault (n + 1) s
      | none => s)
    split
    · exact persistDefault_kept _ _ s
    · exact .of_tables _ (.refl s)

theorem KeptBy.foldl {α : Type} {c : Instr} {f : State → α → State} (h : ∀ s x, KeptBy c s (f s x)) (l : List α)
    (s : State) : KeptBy c s (l.foldl f s) := by
  induction l generalizing s with
  | nil => exact .of_tables c (.refl s)
  | cons x l ih => exact (h s x).trans (ih _)

theorem writeComplete_kept : KeepsTables .storeWriteComplete writeComplete := by
  intro s
  unfold writeComplete
  split
  · exact .of_tables _ (.refl s)
  · next e _ =>
    have written : KeptBy .storeWriteComplete s { s with store := { s.store with
        flash := writeFlash e.id e.content s.store.flash, inFlight := none } } := by simp [KeptBy]
    exact (written.trans (.foldl tellWaiter_kept _ _)).before (finishEvent_tables _)

theorem writeStart_kept (c : Instr) : KeepsTables c writeStart := by
  intro s
  unfold writeStart
  split
  · split <;> simp [KeptBy]
  · exact .of_tables _ (.refl s)

theorem enrollExpiry_kept : KeepsTables .enrollWindowExpiry enrollExpiry := by
  intro s
  unfold enrollExpiry
  split
  · exact .of_tables _ (.refl s)
  · simp [KeptBy]

theorem loadWindows_tables (s : State) : SameTables s (loadWindows s) := by simp [loadWindows, allDoors]

theorem scanComplete_kept : KeepsTables .scanComplete scanComplete := by
  intro s
  unfold scanComplete
  split
  · exact .of_tables _ (.refl s)
  · have keys : changesKeys .scanComplete = true := rfl
    have chains : changesChains .scanComplete = true := rfl
    have tables : KeptBy .scanComplete s (loadTables s) := by simp [KeptBy, keys, chains, loadTables]
    have settings : ∀ x, KeptBy .scanComplete x (loadSettings x) := fun x => by simp [KeptBy, loadSettings]
    have crash : ∀ x, KeptBy .scanComplete x (loadCrash x) := fun x => by simp [KeptBy, loadCrash]
    have repairs : ∀ x, KeptBy .scanComplete x (formRepairs x) := fun x => by
      unfold formRepairs
      dsimp only
      split <;> simp [KeptBy]
    have deliver : ∀ x, SameTables x (deliverCrash x) := fun x => by
      unfold deliverCrash
      split <;> simp
    exact ((((((tables.before (loadWindows_tables _)).trans (settings _)).trans (crash _)).trans (repairs _)).before
      (deliver _)).before (finishEvent_tables _))

/-! ### The other events -/

theorem crashLatches_kept : KeepsTables (.qualificationTimeExpiry .crashLine) crashLatches := by
  intro s
  have h := fun x => foldl_crashAperture_same allApertures x
  simp only [SameFields] at h
  unfold crashLatches
  dsimp only
  split <;> split <;> simp [KeptBy, h]

theorem crashEvent_kept : KeepsTables (.qualificationTimeExpiry .crashLine) crashEvent := by
  intro s
  have windows : ∀ x, SameTables x (allDoors.foldl crashWindow x) := fun x => by
    have h := foldl_crashWindow_same allDoors x
    simp only [SameFields] at h
    simp [h]
  refine ((crashLatches_kept s).before (windows _)).before ?_
  unfold crashEvent
  dsimp only
  split <;> simp

theorem crashExpiry_kept : KeepsTables (.qualificationTimeExpiry .crashLine) crashExpiry := by
  intro s
  unfold crashExpiry
  dsimp only
  split
  · exact .after (by simp) (crashEvent_kept _)
  · exact .of_tables _ (by simp)
  · exact .of_tables _ (.refl s)
  · exact .of_tables _ (.refl s)

theorem qualify_kept (i : Input) : KeepsTables (.qualificationTimeExpiry i) (qualify i) := by
  by_cases h : i = .crashLine
  · rw [h]; exact crashExpiry_kept
  · exact .of_tables _ (qualify_tables h)

theorem pulseEnd_kept : KeepsTables .releasePulseEnd pulseEnd := by
  intro s
  unfold pulseEnd
  split
  · exact .of_tables _ (.refl s)
  · simp [KeptBy]

theorem intervalEnd_kept : KeepsTables .releaseIntervalEnd intervalEnd := by
  intro s
  unfold intervalEnd
  split
  · exact .of_tables _ (.refl s)
  · simp [KeptBy]

theorem retainedExpiry_tables (s : State) : SameTables s (retainedExpiry s) := by
  unfold retainedExpiry
  split <;> simp

theorem speedStale_tables (s : State) : SameTables s (speedStale s) := by
  unfold speedStale
  split <;> simp

theorem silenceExpiry_tables (s : State) : SameTables s (silenceExpiry s) := by
  unfold silenceExpiry
  split
  · exact .refl s
  · split <;> simp

theorem relockExpiry_tables (s : State) : SameTables s (relockExpiry s) := by
  unfold relockExpiry
  split <;> simp

theorem continueExpiry_tables (t : Trigger) (s : State) : SameTables s (continueExpiry t s) := by
  unfold continueExpiry
  split <;> simp

theorem holdExpiry_tables (t : Trigger) (s : State) : SameTables s (holdExpiry t s) := by
  unfold holdExpiry
  split
  · exact .refl s
  · split <;> simp

theorem pauseEnd_tables (s : State) : SameTables s (pauseEnd s) := by
  unfold pauseEnd
  split
  · exact .refl s
  · split
    · exact .refl s
    · split <;> simp

theorem engineChoice_tables (s : State) : SameTables s (engineChoice s) := by
  unfold engineChoice
  split
  · exact .refl s
  · split <;> simp

theorem KeepsTables.finish {c : Instr} {f : State → State} (h : KeepsTables c f) :
    KeepsTables c fun s => finishEvent (f s) := fun s => (h s).before (finishEvent_tables _)

/-- Every event keeps the tables that are not its own. -/
theorem event_keepsTables {c : Instr} {f : State → State} (h : eventOf c = some f) : KeepsTables c f := by
  cases c <;> try cases h
  case scanComplete => exact scanComplete_kept
  case storeWriteStart => exact writeStart_kept _
  case storeWriteComplete => exact writeComplete_kept
  case rfFrameArrival b => exact rfArrival_kept b
  case frameTake => exact frameTake_kept
  case searchStart => exact .of_tables _ searchStart_tables
  case challengeEnd => exact .of_tables _ challengeEnd_tables
  case searchComplete => exact searchComplete_kept
  case enrollWindowExpiry => exact enrollExpiry_kept
  case qualificationTimeExpiry i => exact (qualify_kept i).finish
  case deferredRequestTake => exact .of_tables _ deferredTake_tables
  case supplyMeasurement v => exact fun s => by simp [KeptBy, supplyMeasured]
  case latchHeldStart a => exact (KeepsTables.of_tables _ (heldStart_tables a)).finish
  case latchDriveLimit a => exact (KeepsTables.of_tables _ (driveLimit_tables a)).finish
  case releasePulseEnd => exact pulseEnd_kept.finish
  case releaseIntervalEnd => exact intervalEnd_kept
  case hallEdge d g => exact (KeepsTables.of_tables _ (hallEdge_tables d g)).finish
  case stallTimeout d => exact (KeepsTables.of_tables _ (stallTimeout_tables d)).finish
  case noPulses d => exact (KeepsTables.of_tables _ (noPulses_tables d)).finish
  case runLimit d => exact (KeepsTables.of_tables _ (runLimit_tables d)).finish
  case coastEnd d => exact (KeepsTables.of_tables _ (coastEnd_tables d)).finish
  case motorStart d => exact (KeepsTables.of_tables _ (motorStart_tables d)).finish
  case retainedPowerExpiry => exact .of_tables _ retainedExpiry_tables
  case speedStale => exact .of_tables _ speedStale_tables
  case silenceTimerExpiry => exact .of_tables _ silenceExpiry_tables
  case relockTimerExpiry => exact .of_tables _ relockExpiry_tables
  case continuePointExpiry u => exact .of_tables _ (continueExpiry_tables u)
  case holdTimerExpiry u => exact .of_tables _ (holdExpiry_tables u)
  case pauseEnd => exact .of_tables _ pauseEnd_tables
  case engineChoice => exact .of_tables _ engineChoice_tables

/-- A command that resets nothing keeps the tables that are not its own. -/
theorem exec_kept {c : Instr} {s t : State} (resets : mayReset c = false) (e : exec c s = .next t) : KeptBy c s t := by
  cases form c with
  | @request _ f h =>
    obtain ⟨n, meaning⟩ := exec_ownerOf h
    refine event_keeps (P := fun x => KeptBy c s x) (.of_tables c (.refl s)) ?_ ((meaning s).symm.trans e)
    unfold requestFrame
    split
    · exact .of_tables c (by simp)
    · exact .after (taken_tables n s) (owner_keepsTables h _)
  | @event _ f h =>
    exact event_keeps (P := fun x => KeptBy c s x) (.of_tables c (.refl s)) (event_keepsTables h s)
      ((exec_eventOf h s).symm.trans e)
  | read n => cases resets
  | badFrame bytes => cases resets
  | overrun bytes => cases resets
  | powerOn => cases resets
  | lowVoltage v => cases resets
  | restart =>
    cases e
    unfold partRestart
    split
    · simp [KeptBy, startClocks]
    · exact .of_tables _ (.refl s)
    · exact .of_tables _ (.refl s)
  | wire x => cases e; exact .of_tables _ (by simp [rawChange])

/-- Settles O3. -/
theorem eachTableHasItsOwnCommands : Obligations.EachTableHasItsOwnCommands :=
  fun _ _ _ resets e => (exec_kept resets e).2

/-! ### The queue of commands -/

/-- Every command leaves the queue as it was, resets too. -/
theorem exec_pending {c : Instr} {s t : State} (e : exec c s = .next t) : t.pending = s.pending := by
  refine exec_keeps (P := fun x => x.pending = s.pending) (fun _ _ _ _ k => k) (fun c f h x k => ?_)
    (fun c f h x k => ?_) (fun _ _ _ k => k) (fun _ _ k => k) (fun _ k => k) (fun _ _ k => k) rfl e
  · exact (owner_keepsTables h x).1.trans k
  · exact (event_keepsTables h x).1.trans k

theorem exec_answers (c : Instr) (s : State) : ∃ t, exec c s = .next t := by
  cases form c with
  | request h =>
    obtain ⟨n, meaning⟩ := exec_ownerOf h
    exact ⟨_, meaning s⟩
  | event h => exact ⟨_, exec_eventOf h s⟩
  | _ => exact ⟨_, rfl⟩

/-- Settles O2. -/
theorem everyCommandAnswersAndKeepsTheQueue : Obligations.EveryCommandAnswersAndKeepsTheQueue := by
  intro c s
  obtain ⟨t, e⟩ := exec_answers c s
  exact ⟨t, e, exec_pending e⟩

end Sys2Proof.Machine

/-! The codes of 12, R185, read: what a byte in range is taken for, and that one out of range is taken for nothing. -/

namespace Sys2Proof.Machine

open Sys2Proof

/-! ### A byte that names something is in range -/

theorem slotOf_lt {b : Byte} {i : Fin 8} (h : slotOf b = some i) : b.toNat < 8 := by
  unfold slotOf at h
  split at h
  · assumption
  · cases h

theorem stepIndexOf_lt {b : Byte} {i : Fin 64} (h : stepIndexOf b = some i) : b.toNat < 64 := by
  unfold stepIndexOf at h
  split at h
  · assumption
  · cases h

theorem roleOf_lt {b : Byte} {r : Role} (h : roleOf b = some r) : b.toNat < 3 := by
  unfold roleOf at h
  split at h
  · next e => simp [e]
  · split at h
    · next e => simp [e]
    · split at h
      · next e => simp [e]
      · cases h

theorem boolOf_lt {b : Byte} {x : Bool} (h : boolOf b = some x) : b.toNat < 2 := by
  unfold boolOf at h
  split at h
  · next e => simp [e]
  · split at h
    · next e => simp [e]
    · cases h

theorem unlockModeOf_lt {b : Byte} {x : UnlockMode} (h : unlockModeOf b = some x) : b.toNat < 2 := by
  unfold unlockModeOf at h
  split at h
  · next e => simp [e]
  · split at h
    · next e => simp [e]
    · cases h

theorem profileOf_lt {u p w : Byte} {x : Profile} (h : profileOf u p w = some x) :
    u.toNat < 2 ∧ p.toNat < 2 ∧ w.toNat < 2 := by
  unfold profileOf at h
  split at h
  · next a b c => exact ⟨unlockModeOf_lt a, boolOf_lt b, boolOf_lt c⟩
  · cases h

theorem stagingOf_lt {b : Byte} {x : Staging} (h : stagingOf b = some x) : b.toNat < 3 := by
  unfold stagingOf at h
  split at h
  · next e => simp [e]
  · split at h
    · next e => simp [e]
    · split at h
      · next e => simp [e]
      · cases h

theorem getElem?_lt {α : Type} {l : List α} {n : Nat} {x : α} (h : l[n]? = some x) : n < l.length :=
  (List.getElem?_eq_some_iff.1 h).1

theorem actionOf_lt {b : Byte} {a : Action} (h : actionOf b = some a) : b.toNat < 12 := getElem?_lt h

theorem triggerOfByte_lt {b : Byte} {t : Trigger} (h : triggerOfByte b = some t) : b.toNat < 14 := getElem?_lt h

theorem doorOf_lt {b : Byte} {d : Door} (h : doorOf b = some d) : b.toNat < 4 := getElem?_lt h

theorem apertureOf_lt {b : Byte} {a : Aperture} (h : apertureOf b = some a) : b.toNat < 5 := getElem?_lt h

theorem aperturesOf_lt {b : Byte} {l : List Aperture} (h : aperturesOf b = some l) : b.toNat < 6 := by
  unfold aperturesOf at h
  split at h
  · next e => simp [e]
  · obtain ⟨a, some, _⟩ := Option.map_eq_some_iff.1 h
    have := apertureOf_lt some
    omega

theorem maskOf_lt {n w : Nat} {x : BitVec w} {y : BitVec n} (h : maskOf n x = some y) : x.toNat < 2 ^ n := by
  unfold maskOf at h
  split at h
  · assumption
  · cases h

theorem argumentOf_windowTo {b : Byte} {g : Option Nat} (h : argumentOf .windowTo b = some g) : b.toNat ≤ 100 := by
  unfold argumentOf at h
  split at h <;> simp_all

theorem argumentOf_pause {b : Byte} {g : Option Nat} (h : argumentOf .pause b = some g) :
    1 ≤ b.toNat ∧ b.toNat ≤ 250 := by
  unfold argumentOf at h
  split at h <;> simp_all

theorem startOf_lt {b : Byte} {x : Option (Fin 64)} (h : startOf b = some x) : b.toNat < 64 ∨ b.toNat = 255 := by
  unfold startOf at h
  split at h
  · next e => simp [e]
  · obtain ⟨i, some, _⟩ := Option.map_eq_some_iff.1 h
    exact .inl (stepIndexOf_lt some)

theorem originOf_lt {s : State} {b : Byte} {a : Aperture} (h : originOf s b = some a) : b.toNat < 5 ∨ b.toNat = 255 := by
  unfold originOf at h
  split at h
  · next e => simp [e]
  · exact .inl (apertureOf_lt h)

/-- A byte that names nothing is BAD_ARGUMENT, whatever else the payload holds. -/
theorem needs_bad {α : Type} {x : Option α} {f : α → State → State} {s : State}
    (h : ∀ a, x = some a → f a s = reply .badArgument [] s) : needs x f s = reply .badArgument [] s := by
  cases x with
  | none => rfl
  | some a => exact h a rfl

/-- A request of a served part whose arguments name nothing. -/
theorem exec_bad {c : Instr} {n : Nat} {f : State → State} {s : State} (serves : Serving s)
    (meaning : exec c s = hostRequest n (ready f) s) (bad : f (taken n s) = reply .badArgument [] (taken n s)) :
    exec c s = .next (reply .badArgument [] (taken n s)) := by
  rw [meaning, hostRequest_ready serves, bad]

/-! ### A byte in range names it -/

theorem slotOf_eq {b : Byte} {i : Fin 8} (h : b.toNat = i.val) : slotOf b = some i := by
  simp [slotOf, h]

theorem stepIndexOf_eq {b : Byte} {i : Fin 64} (h : b.toNat = i.val) : stepIndexOf b = some i := by
  simp [stepIndexOf, h]

theorem triggerOf_index (t : Trigger) : triggerOf (triggerIndex t).val = some t := by cases t <;> rfl

theorem triggerOfByte_eq {b : Byte} {t : Trigger} (h : b.toNat = (triggerIndex t).val) : triggerOfByte b = some t := by
  rw [triggerOfByte, h, triggerOf_index]

theorem apertureOf_eq {b : Byte} {a : Aperture} (h : b.toNat = apertureCode a) : apertureOf b = some a := by
  rw [apertureOf, h]
  cases a <;> rfl

theorem aperturesOf_eq {b : Byte} {a : Aperture} (h : b.toNat = apertureCode a) : aperturesOf b = some [a] := by
  have small : b ≠ 5 := by
    intro five
    rw [five] at h
    cases a <;> cases h
  rw [aperturesOf, if_neg small, apertureOf_eq h, Option.map_some]

theorem slotOf_none {b : Byte} (h : 8 ≤ b.toNat) : slotOf b = none :=
  Option.eq_none_iff_forall_ne_some.2 fun _ e => absurd (slotOf_lt e) (by omega)

theorem stepIndexOf_none {b : Byte} (h : 64 ≤ b.toNat) : stepIndexOf b = none :=
  Option.eq_none_iff_forall_ne_some.2 fun _ e => absurd (stepIndexOf_lt e) (by omega)

theorem triggerOfByte_none {b : Byte} (h : 14 ≤ b.toNat) : triggerOfByte b = none :=
  Option.eq_none_iff_forall_ne_some.2 fun _ e => absurd (triggerOfByte_lt e) (by omega)

theorem aperturesOf_none {b : Byte} (h : 6 ≤ b.toNat) : aperturesOf b = none :=
  Option.eq_none_iff_forall_ne_some.2 fun _ e => absurd (aperturesOf_lt e) (by omega)

/-! ### What the link cannot serve (12, R182, R183) -/

/-- The length of an intact frame is its payload's and three bytes more. -/
theorem payloadOf_length {bytes : List Byte} {n : Nat} (len : bytes.length = n + 3) : (payloadOf bytes).length = n := by
  simp [payloadOf, len]

theorem judgeFrame_unknown {bytes : List Byte} (whole : intact bytes = true)
    (none : payloadLength (bytes.getD 0 0).toNat = none) : judgeFrame bytes = reply .unknown [] := by
  unfold judgeFrame
  dsimp only
  rw [if_neg (by simp [whole]), none]

theorem judgeFrame_badLength {bytes : List Byte} {k : Nat} (whole : intact bytes = true)
    (some : payloadLength (bytes.getD 0 0).toNat = some k) (other : (payloadOf bytes).length ≠ k) :
    judgeFrame bytes = reply .badLength [] := by
  unfold judgeFrame
  dsimp only
  rw [if_neg (by simp [whole]), some]
  exact if_neg other

theorem judgeFrame_dispatch {bytes : List Byte} {k : Nat} (whole : intact bytes = true)
    (some : payloadLength (bytes.getD 0 0).toNat = some k) (same : (payloadOf bytes).length = k) :
    judgeFrame bytes = dispatch (bytes.getD 0 0).toNat (payloadOf bytes) := by
  unfold judgeFrame
  dsimp only
  rw [if_neg (by simp [whole]), some]
  exact if_pos same

/-- Settles O8. -/
theorem linkAnswersWhatItCannotServe : Obligations.LinkAnswersWhatItCannotServe := by
  refine ⟨fun c x s request other listens scanning => ?notReady, fun bytes s request listens => ⟨fun torn => ?badFrame,
    fun n whole len none => ?unknown, fun n k whole len some other => ?badLength⟩, fun s serves => ?badArgument⟩
  case notReady =>
    obtain ⟨owner, meaning⟩ := exec_request request other
    rw [meaning, hostRequest_taken _ _ listens.1 listens.2, ready_scanning _ (by simpa using scanning)]
  case badFrame =>
    refine (event_running _ listens.1).trans (congrArg _ ?_)
    rw [transaction_request request, requestTransaction]
    simp only [torn, Bool.false_eq_true, if_false]
    split
    · next busy => exact absurd (by simpa using busy) listens.2
    · simp [judgeFrame, torn]
  case unknown =>
    refine (event_running _ listens.1).trans (congrArg _ ?_)
    rw [transaction_request request, requestTransaction_taken whole len listens.2]
    rw [judgeFrame_unknown whole none]
  case badLength =>
    refine (event_running _ listens.1).trans (congrArg _ ?_)
    rw [transaction_request request, requestTransaction_taken whole len listens.2]
    rw [judgeFrame_badLength whole some (by rw [payloadOf_length len]; exact other.symm)]
  case badArgument =>
    refine ⟨fun i x k r c u p w bad => ?_, fun i u p w bad => ?_, fun i r bad => ?_, fun i bad => ?_,
      fun i a x g r f n bad => ?_, fun i b p g h c bad => ?_, fun b p o bad => ?_, fun i bad => ?_,
      fun i n a bad => ?_, fun i bad => ?_⟩
    · refine exec_bad serves rfl (needs_bad fun _ a => needs_bad fun _ b => needs_bad fun _ d => ?_)
      have := slotOf_lt a
      have := roleOf_lt b
      have := profileOf_lt d
      omega
    · refine exec_bad serves rfl (needs_bad fun _ a => needs_bad fun _ d => ?_)
      have := slotOf_lt a
      have := profileOf_lt d
      omega
    · refine exec_bad serves rfl (needs_bad fun _ a => needs_bad fun _ b => ?_)
      have := slotOf_lt a
      have := roleOf_lt b
      omega
    · have none := slotOf_none bad
      have refuses : ∀ f : Fin 8 → State → State, needs (slotOf i) f (taken 1 s) = reply .badArgument [] (taken 1 s) :=
        fun f => by rw [none, needs_none]
      exact ⟨exec_bad serves rfl (refuses _), exec_bad serves rfl (refuses _), exec_bad serves rfl (refuses _)⟩
    · refine exec_bad serves rfl (needs_bad fun _ e1 => needs_bad fun y e2 => needs_bad fun _ e3 => needs_bad fun _ e4 =>
        needs_bad fun _ e5 => needs_bad fun _ e6 => needs_bad fun _ e7 => ?_)
      have := stepIndexOf_lt e1
      have := actionOf_lt e2
      have := maskOf_lt e3
      have := roleOf_lt e5
      have := maskOf_lt e6
      have := stepIndexOf_lt e7
      have windowTo : actionOf a = some .windowTo → g.toNat ≤ 100 := fun e => by
        rw [e2] at e; cases e; exact argumentOf_windowTo e4
      have pause : actionOf a = some .pause → 1 ≤ g.toNat ∧ g.toNat ≤ 250 := fun e => by
        rw [e2] at e; cases e; exact argumentOf_pause e4
      obtain h | h | h | h | h | h | ⟨e, h⟩ | ⟨e, h⟩ := bad
      all_goals first
        | omega
        | (have := windowTo e; omega)
        | (have := pause e; omega)
    · refine exec_bad serves rfl (needs_bad fun _ e1 => needs_bad fun _ e2 => needs_bad fun _ e3 => needs_bad fun _ e4 =>
        needs_bad fun _ e5 => ?_)
      have := triggerOfByte_lt e1
      have := startOf_lt e2
      have := stagingOf_lt e3
      have := boolOf_lt e4
      have := maskOf_lt e5
      omega
    · refine exec_bad serves rfl (needs_bad fun _ e1 => needs_bad fun _ e2 => ?_)
      have := stepIndexOf_lt e1
      have := originOf_lt e2
      omega
    · have none := triggerOfByte_none bad
      have refuses : ∀ f : Trigger → State → State,
          needs (triggerOfByte i) f (taken 2 s) = reply .badArgument [] (taken 2 s) := fun f => by rw [none, needs_none]
      exact ⟨exec_bad serves rfl (refuses _), exec_bad serves rfl (refuses _)⟩
    · refine exec_bad serves rfl (needs_bad fun _ e1 => needs_bad fun _ e2 => ?_)
      have := doorOf_lt e1
      have := boolOf_lt e2
      omega
    · refine exec_bad serves rfl (needs_bad fun _ e1 => ?_)
      have := doorOf_lt e1
      omega

/-- Settles O9. -/
theorem requestsWhileWorkingOnlyMarkOverrun : Obligations.RequestsWhileWorkingOnlyMarkOverrun := by
  refine ⟨fun c x s request runs busy => ?_, fun bytes s request runs busy torn => ?_,
    fun bytes n s request runs busy whole len => ?_⟩
  · by_cases status : c = .deviceStatus
    · subst status
      cases request
      exact hostRequest_working 0 _ runs busy
    · obtain ⟨owner, meaning⟩ := exec_request request status
      rw [meaning, hostRequest_working _ _ runs busy]
  · refine (event_running _ runs).trans (congrArg _ ?_)
    rw [transaction_request request, requestTransaction]
    simp [torn, busy]
  · refine (event_running _ runs).trans (congrArg _ ?_)
    rw [transaction_request request, requestTransaction]
    simp [whole, busy, heard, len]

end Sys2Proof.Machine

/-! A request's frame (12, R181, R183): its bytes are intact, and dispatch reads back from them the command and its
arguments. -/

namespace Sys2Proof.Machine

open Sys2Proof

/-! ### Numbers spelt in bytes -/

theorem foldl_number (l : List Byte) (n : Nat) :
    l.foldl (fun n b => n * 256 + b.toNat) n = n * 256 ^ l.length + numberOf l := by
  induction l generalizing n with
  | nil => simp [numberOf]
  | cons b l ih =>
    rw [numberOf, List.foldl_cons, List.foldl_cons, ih, ih (0 * 256 + _), List.length_cons, Nat.pow_succ, Nat.zero_mul,
      Nat.zero_add, Nat.add_mul, Nat.mul_assoc, Nat.mul_comm 256, Nat.add_assoc]

theorem numberOf_concat (l : List Byte) (b : Byte) : numberOf (l ++ [b]) = numberOf l * 256 + b.toNat := by
  simp [numberOf]

theorem byte_toNat (n : Nat) : (byte n).toNat = n % 256 := BitVec.toNat_ofNat ..

theorem numberOf_bytesOf (n x : Nat) : numberOf (bytesOf n x) = x % 256 ^ n := by
  induction n generalizing x with
  | zero => simp [bytesOf, numberOf, Nat.mod_one]
  | succ n ih =>
    rw [bytesOf, numberOf_concat, ih, byte_toNat, Nat.pow_succ', Nat.mod_mul]
    exact (Nat.add_comm _ _).trans (congrArg _ (Nat.mul_comm _ _))

/-- A number of whole bytes is read back from its spelling. -/
theorem ofNat_numberOf_bytesOf {w n : Nat} (h : 2 ^ w = 256 ^ n) (x : BitVec w) :
    BitVec.ofNat w (numberOf (bytesOf n x.toNat)) = x := by
  rw [numberOf_bytesOf, ← h, Nat.mod_eq_of_lt x.isLt, BitVec.ofNat_toNat, BitVec.setWidth_eq]

/-! ### The commands of the link -/

/-- What the frame of a command carries, and what its owner makes of it. -/
structure Framed (c : Instr) (x : Byte × List Byte) (f : State → State) : Prop where
  meaning : ∀ s, exec c s = hostRequest x.2.length f s
  code : x.1 ≠ 0
  length : payloadLength x.1.toNat = some x.2.length
  short : x.2.length ≤ 40
  dispatched : dispatch x.1.toNat x.2 = f

theorem numberAt_append {pre l post : List Byte} {i n : Nat} (start : pre.length = i) (len : l.length = n) :
    numberAt (pre ++ (l ++ post)) i n = numberOf l := by
  rw [numberAt, ← start, List.drop_left, ← len, List.take_left]

theorem byteAt_append {pre post : List Byte} {b : Byte} {i : Nat} (start : pre.length = i) :
    byteAt (pre ++ b :: post) i = b := by
  simp [byteAt, ← start]

/-- The arguments of KEY_ENROLL stand one after the other in its payload. -/
theorem dispatch_keyEnroll {i r u p w : Byte} {x k c : List Byte} (hx : x.length = 4) (hk : k.length = 16)
    (hc : c.length = 3) : dispatch 0x0C ([i] ++ x ++ k ++ [r] ++ c ++ [u, p, w]) =
      reqKeyEnroll i (BitVec.ofNat 32 (numberOf x)) (BitVec.ofNat 128 (numberOf k)) r
        (BitVec.ofNat 24 (numberOf c)) u p w := by
  have spelt : [i] ++ x ++ k ++ [r] ++ c ++ [u, p, w] = i :: (x ++ (k ++ r :: (c ++ [u, p, w]))) := by simp
  have identity : numberAt (i :: (x ++ (k ++ r :: (c ++ [u, p, w])))) 1 4 = numberOf x :=
    numberAt_append (pre := [i]) rfl hx
  have secret : numberAt (i :: (x ++ (k ++ r :: (c ++ [u, p, w])))) 5 16 = numberOf k := by
    simpa using numberAt_append (pre := i :: x) (l := k) (post := r :: (c ++ [u, p, w])) (by simp [hx]) hk
  have role : byteAt (i :: (x ++ (k ++ r :: (c ++ [u, p, w])))) 21 = r := by
    simpa using byteAt_append (pre := i :: (x ++ k)) (b := r) (post := c ++ [u, p, w]) (by simp [hx, hk])
  have counter : numberAt (i :: (x ++ (k ++ r :: (c ++ [u, p, w])))) 22 3 = numberOf c := by
    simpa using numberAt_append (pre := i :: (x ++ (k ++ [r]))) (l := c) (post := [u, p, w]) (by simp [hx, hk]) hc
  have unlock : byteAt (i :: (x ++ (k ++ r :: (c ++ [u, p, w])))) 25 = u := by
    simpa using byteAt_append (pre := i :: (x ++ (k ++ r :: c))) (b := u) (post := [p, w]) (by simp [hx, hk, hc])
  have passive : byteAt (i :: (x ++ (k ++ r :: (c ++ [u, p, w])))) 26 = p := by
    simpa using byteAt_append (pre := i :: (x ++ (k ++ r :: (c ++ [u])))) (b := p) (post := [w]) (by simp [hx, hk, hc])
  have comfort : byteAt (i :: (x ++ (k ++ r :: (c ++ [u, p, w])))) 27 = w := by
    simpa using byteAt_append (pre := i :: (x ++ (k ++ r :: (c ++ [u, p])))) (b := w) (post := []) (by simp [hx, hk, hc])
  have read : ∀ l : List Byte, dispatch 0x0C l = reqKeyEnroll (byteAt l 0) (BitVec.ofNat 32 (numberAt l 1 4))
      (BitVec.ofNat 128 (numberAt l 5 16)) (byteAt l 21) (BitVec.ofNat 24 (numberAt l 22 3)) (byteAt l 25)
      (byteAt l 26) (byteAt l 27) := fun _ => rfl
  rw [spelt, read, identity, secret, role, counter, unlock, passive, comfort]
  rfl

theorem framed {c : Instr} {x : Byte × List Byte} (h : requestOf c = some x) : ∃ f, Framed c x f := by
  cases c <;> try cases h
  case vehicleState v m =>
    have read := ofNat_numberOf_bytesOf (n := 2) rfl v
    exact ⟨_, fun _ => rfl, by simp, rfl, by simp, congrArg (reqVehicleState · m) read⟩
  case attentionMask m =>
    have read := ofNat_numberOf_bytesOf (n := 2) rfl m
    exact ⟨_, fun _ => rfl, by simp, rfl, by simp, congrArg reqAttentionMask read⟩
  case keyFind i =>
    have read := ofNat_numberOf_bytesOf (n := 4) rfl i
    exact ⟨_, fun _ => rfl, by simp, rfl, by simp, congrArg reqKeyFind read⟩
  case keyEnroll i y k r c u p w =>
    have readIdentity := ofNat_numberOf_bytesOf (n := 4) rfl y
    have readSecret := ofNat_numberOf_bytesOf (n := 16) rfl k
    have readCounter := ofNat_numberOf_bytesOf (n := 3) rfl c
    have length : ([i] ++ bytesOf 4 y.toNat ++ bytesOf 16 k.toNat ++ [r] ++ bytesOf 3 c.toNat ++ [u, p, w]).length = 28 := by
      simp
    refine ⟨reqKeyEnroll i y k r c u p w, fun s => ?_, by simp, ?_, by simp, ?_⟩
    · rw [length]; rfl
    · rw [length]; rfl
    · refine (dispatch_keyEnroll (by simp) (by simp) (by simp)).trans ?_
      rw [readIdentity, readSecret, readCounter]
  case triggerWrite i b p g h c =>
    have read := ofNat_numberOf_bytesOf (n := 2) rfl c
    exact ⟨_, fun _ => rfl, by simp, rfl, by simp, congrArg (reqTriggerWrite i b p g h) read⟩
  all_goals exact ⟨_, fun _ => rfl, by simp, rfl, by simp, rfl⟩

/-! ### The frame's bytes -/

/-- The frame of a code and its payload. -/
def frameOf (x : Byte × List Byte) : List Byte :=
  (x.1 :: byte x.2.length :: x.2) ++ [crc8 (x.1 :: byte x.2.length :: x.2)]

theorem requestBytes_eq {c : Instr} {bytes : List Byte} (h : requestBytes c = some bytes) :
    ∃ x, requestOf c = some x ∧ frameOf x = bytes := Option.map_eq_some_iff.1 h

theorem frameOf_length (x : Byte × List Byte) : (frameOf x).length = x.2.length + 3 := by simp [frameOf]

theorem crcMatches_concat (l : List Byte) : crcMatches (l ++ [crc8 l]) = true := by simp [crcMatches]

theorem frameOf_intact {x : Byte × List Byte} (short : x.2.length ≤ 40) : intact (frameOf x) = true := by
  have announced : ((frameOf x).getD 1 0).toNat = x.2.length := by
    show (byte x.2.length).toNat = _
    rw [byte_toNat]
    omega
  have whole : wholeFrame (frameOf x) = true := by
    rw [wholeFrame, announced, frameOf_length]
    simpa using short
  rw [intact, whole, Bool.true_and]
  exact crcMatches_concat _

theorem frameOf_payload (x : Byte × List Byte) : payloadOf (frameOf x) = x.2 := by
  simp [payloadOf, frameOf]

/-- The bytes of a command's frame do what the command does. -/
theorem transaction_frame {c : Instr} {x : Byte × List Byte} (h : requestOf c = some x) (s : State) :
    event (transaction (frameOf x)) s = exec c s := by
  obtain ⟨f, meaning, code, length, short, dispatched⟩ := framed h
  have whole := frameOf_intact short
  have request : isRequest (frameOf x) = true := by simpa [isRequest, frameOf] using code
  have done : ∀ s, transaction (frameOf x) s = requestFrame x.2.length f s := by
    intro s
    rw [transaction_request request]
    by_cases busy : s.link.state = .working
    · rw [requestTransaction]
      simp [whole, busy, requestFrame, heard, frameOf_length]
    · rw [requestTransaction_taken whole (frameOf_length x) busy, requestFrame_taken _ _ busy,
        judgeFrame_dispatch whole length (by rw [frameOf_payload]), frameOf_payload, ← dispatched]
      rfl
  rw [meaning, hostRequest]
  exact congrArg (event · s) (funext done)

/-- Settles O11. -/
theorem frameOfARequestIsThatRequest : Obligations.FrameOfARequestIsThatRequest := by
  refine ⟨fun c bytes s spelt => ?_, fun r => ⟨crcMatches_concat _, by simp [replyFrame]⟩, fun c bytes spelt => ?_⟩
  · obtain ⟨x, request, rfl⟩ := requestBytes_eq spelt
    exact ⟨transaction_frame request s, transaction_frame request s⟩
  · obtain ⟨x, request, rfl⟩ := requestBytes_eq spelt
    obtain ⟨f, frame⟩ := framed request
    exact frameOf_intact frame.short

end Sys2Proof.Machine

/-! A window's request leaves everything else of the part alone; what the closing of the gate leaves (03, R48). -/

namespace Sys2Proof.Machine

open Sys2Proof

/-! ### The work of a Window Unit -/

/-- Only the windows, the writes to come and the mail differ. -/
def WindowWork (s t : State) : Prop := t = { s with windows := t.windows, store := t.store, mail := t.mail }

theorem WindowWork.refl (s : State) : WindowWork s s := rfl

theorem WindowWork.trans {s t u : State} (h : WindowWork s t) (k : WindowWork t u) : WindowWork s u := by
  unfold WindowWork at *
  rw [k, h]

theorem WindowWork.set (d : Door) (w : Window) {s t : State} (h : WindowWork s t) : WindowWork s (setWindow d w t) :=
  h.trans rfl

theorem WindowWork.written (d : Door) (l : List WriteWaiter) {s t : State} (h : WindowWork s t) :
    WindowWork s (writeWindow d l t) := h.trans rfl

theorem WindowWork.told (d : Door) (m : Movement) (o : OpOutcome) {s t : State} (h : WindowWork s t) :
    WindowWork s (tellMove d m o t) := by
  refine h.trans ?_
  unfold tellMove tell
  split <;> rfl

theorem tellMotion_work (d : Door) (o : OpOutcome) (s : State) : WindowWork s (tellMotion d o s) := by
  unfold tellMotion
  split
  · exact (WindowWork.refl s).told d _ o
  · exact .refl s

theorem toIdle_work (d : Door) (s : State) : WindowWork s (toIdle d s) := rfl

theorem startMotor_work (d : Door) (m : Movement) (s : State) : WindowWork s (startMotor d m s) := by
  unfold startMotor
  dsimp only
  split
  · exact ((WindowWork.refl s).told d m _).trans (toIdle_work d _)
  · split
    · exact ((WindowWork.refl s).told d m _).trans (toIdle_work d _)
    · rfl

theorem comeToRest_work (d : Door) (s : State) : WindowWork s (comeToRest d s) := by
  unfold comeToRest
  dsimp only
  split
  · exact (WindowWork.set d _ (.refl s)).trans (toIdle_work d _)
  · split
    · rfl
    · exact (WindowWork.set d _ (.refl s)).trans (startMotor_work d _ _)

theorem stopMovement_work (d : Door) (o : Option OpOutcome) (s : State) : WindowWork s (stopMovement d o s) := by
  have told : WindowWork s (match o with
      | some o => tellMotion d o s
      | none => s) := by
    cases o with
    | none => exact .refl s
    | some o => exact tellMotion_work d o s
  unfold stopMovement
  dsimp only
  split
  · exact told.set d _
  · exact (told.set d _).trans (comeToRest_work d _)
  · exact .refl s
  · exact .refl s

theorem removeFollowOn_work (d : Door) (o : Option OpOutcome) (s : State) : WindowWork s (removeFollowOn d o s) := by
  unfold removeFollowOn
  dsimp only
  split
  · exact .refl s
  · split
    · exact (WindowWork.set d _ (.refl s)).told d _ _
    · exact (WindowWork.refl s).set d _

theorem beginMarking_work (d : Door) (m : Movement) (s : State) : WindowWork s (beginMarking d m s) := by
  unfold beginMarking
  dsimp only
  split <;> rfl

theorem takeMovement_work (d : Door) (m : Movement) (s : State) : WindowWork s (takeMovement d m s).1 := by
  unfold takeMovement
  dsimp only
  split
  · split
    · exact (WindowWork.refl s).told d m _
    · exact beginMarking_work d m s
  · exact (tellMotion_work d _ s).set d _
  · split
    · exact tellMotion_work d _ s
    · split
      · exact ((tellMotion_work d _ s).set d _).told d m _
      · split
        · exact (tellMotion_work d _ s).set d _
        · exact (tellMotion_work d _ s).set d _
  · exact (removeFollowOn_work d _ s).set d _

theorem switchRequest_work (d : Door) (x : Direction) (b o : Bool) (s : State) :
    WindowWork s (switchRequest d x b o s) := by
  have held : WindowWork s (if (moveDenial s.latches.crashHold (windowAt s d) x .held).isNone then
      (takeMovement d (plainMove x .held (switchRequester o) []) s).1 else s) := by
    split
    · exact takeMovement_work d _ s
    · exact .refl s
  unfold switchRequest
  dsimp only
  split
  · split
    · exact takeMovement_work d _ s
    · exact .refl s
    · exact held
  · exact held

theorem switchNeutral_work (d : Door) (o : Bool) (s : State) : WindowWork s (switchNeutral d o s) := by
  unfold switchNeutral
  dsimp only
  split
  · exact ((WindowWork.refl s).set d _).trans (stopMovement_work d none _)
  · split
    · exact ((WindowWork.refl s).set d _).trans (removeFollowOn_work d none _)
    · exact (WindowWork.refl s).set d _

theorem switchPress_work (d : Door) (x : Direction) (b o : Bool) (s : State) :
    WindowWork s (switchPress d x b o s) := by
  unfold switchPress
  dsimp only
  split
  · exact (stopMovement_work d _ s).set d _
  · split
    · exact (removeFollowOn_work d _ s).set d _
    · exact switchRequest_work d x b o s

theorem switchUpgrade_work (d : Door) (x : Direction) (o : Bool) (s : State) :
    WindowWork s (switchUpgrade d x o s) := by
  unfold switchUpgrade
  dsimp only
  split
  · split
    · exact takeMovement_work d _ s
    · exact .refl s
  · exact .refl s

/-- A delivery that no lockout takes away (03, R49). -/
def switchGiven (d : Door) (own : Bool) (old new : SwitchPos) (s : State) : State :=
  if reversing (windowAt s d) then
    if new = .neutral then setWindow d (setConsumed own false (windowAt s d)) s
    else if old = .neutral then setWindow d (setConsumed own true (windowAt s d)) s
    else s
  else
    match switchDirection new with
    | none => switchNeutral d own s
    | some dir =>
      if consumed (windowAt s d) own then s
      else if switchDirection old = some dir then
        (if isAuto new && !isAuto old then switchUpgrade d dir own s else s)
      else switchPress d dir (isAuto new) own s

theorem switchDelivery_eq (d : Door) (own : Bool) (old new : SwitchPos) (s : State) :
    switchDelivery d own old new s = if own && childLocked s d then s else switchGiven d own old new s := by
  cases d <;> simp [switchDelivery, switchGiven, childLocked] <;> rfl

theorem switchGiven_work (d : Door) (o : Bool) (x y : SwitchPos) (s : State) :
    WindowWork s (switchGiven d o x y s) := by
  unfold switchGiven
  split
  · split
    · exact (WindowWork.refl s).set d _
    · split
      · exact (WindowWork.refl s).set d _
      · exact .refl s
  · split
    · exact switchNeutral_work d o s
    · split
      · exact .refl s
      · split
        · split
          · exact switchUpgrade_work d _ o s
          · exact .refl s
        · exact switchPress_work d _ _ o s

theorem switchDelivery_work (d : Door) (o : Bool) (x y : SwitchPos) (s : State) :
    WindowWork s (switchDelivery d o x y s) := by
  rw [switchDelivery_eq]
  split
  · exact .refl s
  · exact switchGiven_work d o x y s

/-! ### The window switches delivered -/

/-- Only the windows, the writes to come, the mail and the positions delivered of window switches differ. -/
def SwitchWork (s t : State) : Prop :=
  t = { s with
    windows := t.windows, store := t.store, mail := t.mail
    inputs := { s.inputs with pack := t.inputs.pack, rearDoor := t.inputs.rearDoor, passenger := t.inputs.passenger } }

theorem SwitchWork.refl (s : State) : SwitchWork s s := rfl

theorem SwitchWork.trans {s t u : State} (h : SwitchWork s t) (k : SwitchWork t u) : SwitchWork s u := by
  unfold SwitchWork at *
  rw [k, h]

theorem SwitchWork.link {s t : State} (h : SwitchWork s t) : t.link = s.link := by rw [h]

theorem WindowWork.switch {s t : State} (h : WindowWork s t) : SwitchWork s t := by
  unfold WindowWork at h
  unfold SwitchWork
  rw [h]

theorem setSwitch_work (w : WinSwitch) (v : WindowSwitch) (s : State) :
    SwitchWork s (setInputs (setSwitch w v s.inputs) s) := by cases w <;> rfl

theorem switchAt_setSwitch (w z : WinSwitch) (v : WindowSwitch) (x : Inputs) :
    switchAt (setSwitch w v x) z = if w = z then v else switchAt x z := by
  cases w <;> cases z <;> simp [switchAt, setSwitch, Four.get_set, Rears.get_set]

theorem deliverSwitch_work (w : WinSwitch) (p : SwitchPos) (s : State) : SwitchWork s (deliverSwitch w p s) :=
  (setSwitch_work w _ s).trans (switchDelivery_work _ _ _ _ _).switch

theorem deliverSwitch_inputs (w : WinSwitch) (p : SwitchPos) (s : State) : (deliverSwitch w p s).inputs =
    setSwitch w { switchAt s.inputs w with delivered := p } s.inputs := by
  simp [deliverSwitch, setInputs]

theorem releaseSwitch_work (s : State) (w : WinSwitch) : SwitchWork s (releaseSwitch s w) := by
  unfold releaseSwitch
  split
  · exact .refl s
  · exact deliverSwitch_work w _ s

/-- The switch released is delivered NEUTRAL, and no other changes. -/
theorem releaseSwitch_switchAt (s : State) (w z : WinSwitch) : switchAt (releaseSwitch s w).inputs z =
    if w = z then { switchAt s.inputs w with delivered := .neutral } else switchAt s.inputs z := by
  unfold releaseSwitch
  split
  · next already =>
    split
    · next same => rw [← same, ← already]
    · rfl
  · rw [deliverSwitch_inputs, switchAt_setSwitch]

theorem SwitchWork.foldl {α : Type} {f : State → α → State} (h : ∀ s x, SwitchWork s (f s x)) (l : List α) (s : State) :
    SwitchWork s (l.foldl f s) := by
  induction l generalizing s with
  | nil => exact .refl s
  | cons x l ih => exact (h s x).trans (ih _)

theorem foldl_releaseSwitch_delivered (l : List WinSwitch) (s : State) (z : WinSwitch)
    (h : z ∈ l ∨ (switchAt s.inputs z).delivered = .neutral) :
    (switchAt (l.foldl releaseSwitch s).inputs z).delivered = .neutral := by
  induction l generalizing s with
  | nil => exact h.resolve_left List.not_mem_nil
  | cons w l ih =>
    refine ih _ ?_
    rw [releaseSwitch_switchAt]
    by_cases same : w = z
    · right; rw [if_pos same]
    · rw [if_neg same]
      refine h.imp_left fun m => ?_
      exact (List.mem_cons.1 m).resolve_left fun e => same e.symm

theorem closeGate_work (s : State) : SwitchWork s (closeGate s) := by
  unfold closeGate
  split
  · exact .refl s
  · exact .foldl releaseSwitch_work _ s

theorem SwitchWork.gateOpen {s t : State} (h : SwitchWork s t) (scan : t.store.scanDone = s.store.scanDone) :
    gateOpen t = gateOpen s := by
  unfold Machine.gateOpen
  rw [scan, h]

/-- With the gate closed every switch is delivered NEUTRAL. -/
theorem closeGate_delivered (s : State) (closed : gateOpen (closeGate s) = false) (w : WinSwitch) :
    (switchAt (closeGate s).inputs w).delivered = .neutral := by
  have same := (closeGate_work s).gateOpen (by simp)
  rw [same] at closed
  unfold closeGate
  rw [if_neg (by simp [closed])]
  exact foldl_releaseSwitch_delivered _ s w (.inl (by cases w with
    | pack d => cases d <;> decide
    | rearDoor r => cases r <;> decide
    | passenger => decide))

end Sys2Proof.Machine

/-! The requests that read and set: status, attention, settings, supervision, vehicle state, the clearing of the crash. -/

namespace Sys2Proof.Machine

open Sys2Proof

/-! ### Reads (12, R184) -/

theorem latchBytes_length (u : LatchUnit) (now : Nat) : (latchBytes u now).length = 9 := rfl

theorem childBytes_length (s : State) (a : Aperture) : (childBytes s a).length = 3 := by cases a <;> rfl

theorem releaseBytes_length (s : State) (a : Aperture) : (releaseBytes s a).length = 2 := by
  unfold releaseBytes
  split <;> rfl

theorem optBytes2_length (x : Option Nat) : (optBytes2 x).length = 2 := by cases x <;> rfl

theorem motionBytes_length (m : Option Motion) (now : Nat) : (motionBytes m now).length = 11 := by
  cases m with
  | none => rfl
  | some m => simp [motionBytes, optBytes2_length, bytes2]

theorem windowBytes_length (s : State) (a : Aperture) : (windowBytes s a).length = 22 := by
  unfold windowBytes
  split
  · rfl
  · simp [optBytes2_length, motionBytes_length]

theorem snapshot_length (s : State) (a : Aperture) : (snapshot s a).length = 38 := by
  simp [snapshot, latchBytes_length, childBytes_length, releaseBytes_length, windowBytes_length]

theorem findIdentity_taken (n : Nat) (s : State) (x : BitVec 32) :
    findIdentity (taken n s) x = findIdentity s x := by
  have same : keyAt (taken n s) = keyAt s := by
    funext i
    rw [keyAt, taken_keys]
    rfl
  rw [findIdentity, same]
  rfl

/-- Settles O14. -/
theorem readRequestsReplyTheirRecord : Obligations.ReadRequestsReplyTheirRecord := by
  refine ⟨⟨fun s listens => hostRequest_taken _ _ listens.1 listens.2, fun s serves => ⟨?settings, ?runs,
    fun b i h => ?key, fun b h => ?keyBad, fun x i h => ?find, fun x h => ?findNone, fun b i h => ?step,
    fun b h => ?stepBad, fun b t h => ?trigger, fun b h => ?triggerBad⟩⟩,
    fun s serves => ⟨fun b a h => ⟨?one, snapshot_length _ _⟩, ?all, fun b h => ?apertureBad⟩⟩
  case settings => refine (hostRequest_ready serves).trans ?_; simp
  case runs => exact hostRequest_ready serves
  case key => refine (hostRequest_ready serves).trans ?_; simp [slotOf_eq h, keyAt]
  case keyBad => refine (hostRequest_ready serves).trans ?_; rw [slotOf_none h, needs_none]
  case find =>
    refine (hostRequest_ready serves).trans ?_
    rw [findIdentity_taken, h]
  case findNone =>
    refine (hostRequest_ready serves).trans ?_
    rw [findIdentity_taken, h]
  case step => refine (hostRequest_ready serves).trans ?_; simp [stepIndexOf_eq h, stepAt]
  case stepBad => refine (hostRequest_ready serves).trans ?_; rw [stepIndexOf_none h, needs_none]
  case trigger =>
    refine (hostRequest_ready serves).trans ?_
    simp [triggerOfByte_eq h, triggerAt, continueAt, refireAt, runAt]
  case triggerBad => refine (hostRequest_ready serves).trans ?_; rw [triggerOfByte_none h, needs_none]
  case one => refine (hostRequest_ready serves).trans ?_; simp [aperturesOf_eq h]
  case all => exact hostRequest_ready serves
  case apertureBad => refine (hostRequest_ready serves).trans ?_; rw [aperturesOf_none h, needs_none]

/-! ### Attention and settings -/

theorem releaseSwitch_passenger (s : State) : releaseSwitch s .passenger =
    if (switchAt s.inputs .passenger).delivered = .neutral then s
    else switchDelivery (if s.link.settings.driverFr then .fl else .fr) true (switchAt s.inputs .passenger).delivered
      .neutral (setInputs (setSwitch .passenger { switchAt s.inputs .passenger with delivered := .neutral } s.inputs) s) :=
  rfl

/-- Settles O13. -/
theorem attentionAndSettingsRequests : Obligations.AttentionAndSettingsRequests := by
  refine ⟨fun s serves => ⟨exec_attentionRead serves, fun m => exec_attentionMask m serves⟩,
    fun d a h w r p n s serves => ⟨fun x y driver auto => ?_, fun bad => ?_⟩⟩
  · have meaning : exec (.settingsWrite d a h w r p n) s = .next (takeSettings
        (clampSettings x y h.toNat w.toNat r.toNat p.toNat n.toNat) (taken 7 s)) := by
      refine (hostRequest_ready serves).trans ?_
      rw [driver, needs_some, auto, needs_some]
    dsimp only
    rw [meaning]
    generalize clampSettings x y h.toNat w.toNat r.toNat p.toNat n.toNat = new
    have settings : (taken 7 s).link.settings = s.link.settings := by simp
    refine ⟨fun same => ?_, fun other => ⟨_, rfl, ?_⟩, fun other => ?_⟩
    · rw [takeSettings, if_pos (same.trans settings.symm)]
    · rw [takeSettings, if_neg (by rwa [settings])]
      have state : (changeSettings new (taken 7 s)).link.state = .working := by
        unfold changeSettings
        dsimp only
        split <;> split <;> simp [(releaseSwitch_work _ _).link]
      have written : (changeSettings new (taken 7 s)).link.settings = new := by
        unfold changeSettings
        dsimp only
        split <;> split <;> simp
      exact ⟨written, state, offer_queued _ _ _ _ (List.mem_singleton.2 rfl)⟩
    · rw [takeSettings, if_neg (by rwa [settings])]
      congr 1
      unfold changeSettings
      dsimp only
      rw [settings, releaseSwitch_passenger, settings]
      by_cases driver : new.driverFr = s.link.settings.driverFr
      · simp only [driver, true_or, if_true]
      · by_cases rests : (switchAt (taken 7 s).inputs .passenger).delivered = .neutral
        · simp only [if_neg driver, rests, or_true, if_true]
        · simp only [driver, rests, or_self, if_false]
  · have meaning : exec (.settingsWrite d a h w r p n) s = .next (needs (boolOf d) (fun d => needs (boolOf a) fun a =>
        takeSettings (clampSettings d a h.toNat w.toNat r.toNat p.toNat n.toNat)) (taken 7 s)) := hostRequest_ready serves
    rw [meaning]
    refine congrArg _ (needs_bad fun x driver => needs_bad fun y auto => ?_)
    rw [driver, auto] at bad
    exact absurd bad (by simp)

/-! ### The crash cleared (04, R79) -/

/-- Settles O24. -/
theorem clearCrashNeedsAStandstill : Obligations.ClearCrashNeedsAStandstill := by
  intro s serves
  have meaning : exec .clearCrash s = .next (takeClearCrash (taken 0 s)) := hostRequest_ready serves
  have hold : (taken 0 s).latches.crashHold = s.latches.crashHold := by simp
  rw [meaning]
  refine ⟨fun moving => ?_, fun stands clear => ?_, fun stands inForce => ⟨_, rfl, ?_⟩⟩
  · rw [takeClearCrash, if_pos moving]
  · rw [takeClearCrash, if_neg (by simp [stands]), if_pos (hold.trans clear)]
  · rw [takeClearCrash, if_neg (by simp [stands]), if_neg (by simp [inForce])]
    exact ⟨by simp, rfl, offer_queued _ _ _ _ (List.mem_singleton.2 rfl)⟩

/-! ### Supervision and parking (10) -/

@[simp] theorem SwitchWork.continueAt {s t : State} (h : SwitchWork s t) (u : Trigger) :
    continueAt t u = continueAt s u := by rw [h]; rfl

theorem enterParked_work (s : State) : SwitchWork { s with
      sup := { s.sup with mode := .parked, silence := none }
      engine := { s.engine with continuePoints := Vector.replicate 14 none }
      keys := { s.keys with window := none }
      vehicle := { s.vehicle with discard := true, retained := none } } (enterParked s) := closeGate_work _

/-- A PARKED part's gate is closed, so that no switch stands delivered. -/
theorem enterParked_delivered (s : State) (w : WinSwitch) :
    (switchAt (enterParked s).inputs w).delivered = .neutral := by
  refine closeGate_delivered _ ?_ w
  have parked : (enterParked s).sup.mode = .parked := by rw [enterParked_work s]
  unfold enterParked at parked
  simp [gateOpen, parked]

/-- Settles O16. -/
theorem supervisionRequestsAndParking : Obligations.SupervisionRequestsAndParking := by
  refine ⟨⟨fun s serves => ⟨hostRequest_ready serves, hostRequest_ready serves⟩, fun x s runs active timer => ?silence⟩,
    fun s serves => ⟨fun busy => ?refused, fun rests => ?parked⟩⟩
  case silence =>
    refine ⟨_, event_running _ runs, ?_⟩
    simp only [silenceExpiry, timer, active, if_true]
    exact ⟨rfl, rfl, raised_raise .silence _, rfl, rfl, rfl⟩
  case refused =>
    refine (hostRequest_ready serves).trans ?_
    rw [if_neg (by simp [busy])]
  case parked =>
    have work := enterParked_work (taken 0 s)
    refine ⟨reply .ok [] (enterParked (taken 0 s)), ?_, ?_⟩
    · refine (hostRequest_ready serves).trans ?_
      rw [if_pos rests]
    · refine ⟨?_, ?_, fun u => ?_, ?_, ?_, ?_, ?_, ?_, ?_, ?_, fun w => enterParked_delivered _ w, ?_⟩
      · rw [reply_sup, work]
      · rw [reply_sup, work]
      · show continueAt (enterParked (taken 0 s)) u = none
        rw [work.continueAt]
        exact look_replicate _ _
      · rw [reply_keys, work]
      · rw [reply_vehicle, work]
      · rw [speedKnown, reply_sup, work]; rfl
      · rw [reply_vehicle, work]
      · rw [reply_sup, work]
      · rw [reply_vehicle, work]; simp
      · rw [reply_engine, work]
      · show LinkState.replyReady { status := .ok, overrun := (enterParked (taken 0 s)).link.overrun, payload := [] } = _
        rw [work]
        simp

end Sys2Proof.Machine

/-! The vehicle's state, the supply and the wires (03); ajar switches, pads and the controls qualified. -/

namespace Sys2Proof.Machine

open Sys2Proof

/-! ### The vehicle's state taken -/

/-- What retained power becomes when the power mode changes to `p` (03, R46). -/
def retainedAfter (p : PowerMode) (s : State) : Option Nat :=
  if p = s.vehicle.powerMode then s.vehicle.retained
  else if s.vehicle.powerMode = .run ∧ p = .off ∧ 0 < s.link.settings.retainedPower then
    some (s.now + ms (s.link.settings.retainedPower * 1000))
  else none

/-- The part with the power mode changed to `p`, before its gate closes. -/
def powered (p : PowerMode) (s : State) : State :=
  { s with
    vehicle := { s.vehicle with powerMode := p, retained := retainedAfter p s }
    engine := { s.engine with relock := if s.vehicle.powerMode = .off ∧ p ≠ .off then none else s.engine.relock } }

theorem changePower_same {p : PowerMode} {s : State} (h : p = s.vehicle.powerMode) : changePower p s = s := if_pos h

theorem powered_same {p : PowerMode} {s : State} (h : p = s.vehicle.powerMode) : powered p s = s := by
  have stays : ¬(s.vehicle.powerMode = .off ∧ p ≠ .off) := fun k => k.2 (h.trans k.1)
  rw [powered, retainedAfter, if_pos h, if_neg stays, h]

theorem changePower_other {p : PowerMode} {s : State} (h : p ≠ s.vehicle.powerMode) :
    changePower p s = closeGate (powered p s) := by
  have leaves : s.vehicle.powerMode = .off → p ≠ .off := fun k e => h (e.trans k.symm)
  unfold changePower powered retainedAfter
  dsimp only
  rw [if_neg h, if_neg h]
  by_cases off : s.vehicle.powerMode = .off
  · simp only [off, leaves off, ne_eq, not_false_eq_true, and_self, if_true]
    rfl
  · simp only [off, false_and, if_false]

theorem changePower_work (p : PowerMode) (s : State) : SwitchWork (powered p s) (changePower p s) := by
  by_cases h : p = s.vehicle.powerMode
  · rw [changePower_same h, powered_same h]; exact .refl s
  · rw [changePower_other h]; exact closeGate_work _

/-- The vehicle's state as the message tells it. -/
def told (n : Nat) (s : State) : State :=
  { s with vehicle := { s.vehicle with speed := min 255 n, taken := some s.now, discard := false } }

/-- The part with the vehicle's state taken, before the test of the speed lock. -/
def updated (n : Nat) (p : PowerMode) (s : State) : State :=
  let y := changePower p (told n s)
  if speedZero y then armSpeedLock y else y

theorem takeVehicleState_eq (n : Nat) (p : PowerMode) (s : State) :
    takeVehicleState n p s = testSpeedLock (updated n p s) := rfl

theorem SwitchWork.speedZero {s t : State} (h : SwitchWork s t) : speedZero t = speedZero s := by rw [h]; rfl

theorem speedZero_powered {n : Nat} {p : PowerMode} {s : State} (active : s.sup.mode = .active) :
    speedZero (powered p (told n s)) = decide (n = 0) := by
  have known : speedKnown (powered p (told n s)) = true := by simp [speedKnown, powered, told, active]
  have zero : (powered p (told n s)).vehicle.speed = 0 ↔ n = 0 := by
    show min 255 n = 0 ↔ n = 0
    omega
  simp only [Machine.speedZero, known, Bool.true_and, zero]

theorem updated_work {n : Nat} {p : PowerMode} {s : State} (active : s.sup.mode = .active) :
    SwitchWork { powered p (told n s) with
      engine := { (powered p (told n s)).engine with armed := if n = 0 then true else s.engine.armed } }
      (updated n p s) := by
  have work := changePower_work p (told n s)
  have zero := work.speedZero.trans (speedZero_powered active)
  unfold updated
  dsimp only
  rw [zero]
  by_cases h : n = 0
  · simp only [h, decide_true, if_true] at work ⊢
    unfold SwitchWork armSpeedLock at *
    rw [work]
  · simp only [h, decide_false, if_false] at work ⊢
    exact work

theorem gateOpen_finishEvent (s : State) : gateOpen (finishEvent s) = gateOpen s := by simp [gateOpen]

theorem speedLockDue_iff (s : State) : speedLockDue s = true ↔
    s.engine.armed = true ∧ s.link.settings.autoLock = true ∧ speedKnown s = true ∧
      s.link.settings.speedThreshold ≤ s.vehicle.speed ∧ ∀ a, isClosed s a = true := by
  have closed : allClosed s = true ↔ ∀ a, isClosed s a = true := by
    rw [allClosed, List.all_eq_true]
    exact ⟨fun h a => h a (by cases a <;> decide), fun h a _ => h a⟩
  simp only [speedLockDue, Bool.and_eq_true, decide_eq_true_eq, closed, and_assoc]

/-- Settles O17. -/
theorem vehicleStateIsTakenAndGrowsStale : Obligations.VehicleStateIsTakenAndGrowsStale := by
  refine ⟨fun v b s serves => ⟨fun bad => ?bad, fun p good => ?fields, fun p good => ?before⟩,
    fun s => ⟨fun due => if_pos ((speedLockDue_iff s).2 due), fun not => if_neg fun due => not ((speedLockDue_iff s).1 due)⟩,
    fun x s runs taken => ?stale, fun x s runs retained => ?expiry⟩
  case bad =>
    refine (hostRequest_ready serves).trans ?_
    rw [bad, needs_none]
  case fields =>
    have work := updated_work (n := v.toNat) (p := p) (s := taken 3 s) (taken_sup_mode 3 s)
    refine ⟨reply .ok [] (finishEvent (takeVehicleState v.toNat p (taken 3 s))), ?_, ?_⟩
    · refine (hostRequest_ready serves).trans ?_
      rw [good, needs_some]
    · have vehicle : (finishEvent (takeVehicleState v.toNat p (taken 3 s))).vehicle =
          { s.vehicle with speed := min 255 v.toNat, taken := some s.now, discard := false, powerMode := p,
                           retained := retainedAfter p s } := by
        rw [takeVehicleState_eq]
        simp only [finishEvent_same, testSpeedLock_same]
        rw [work]
        simp [powered, told, retainedAfter]
      have overrun : (finishEvent (takeVehicleState v.toNat p (taken 3 s))).link.overrun = s.link.overrun := by
        rw [takeVehicleState_eq]
        simp only [finishEvent_same, testSpeedLock_same]
        rw [work]
        simp [powered, told]
      simp only [reply_vehicle, vehicle, retainedAfter, true_and]
      show LinkState.replyReady _ = _
      rw [overrun]
  case before =>
    have work := updated_work (n := v.toNat) (p := p) (s := taken 3 s) (taken_sup_mode 3 s)
    refine ⟨updated v.toNat p (taken 3 s), ?_, ?_, ?_, ?_, ?_, ?_, ?_, ?_, fun a => ?_, ?_, fun other closed w => ?_⟩
    · refine (hostRequest_ready serves).trans ?_
      rw [good, needs_some, takeVehicleState_eq]
    · rw [work]; rfl
    · rw [work]; rfl
    · rw [work]; simp [powered, told]
    · rw [work]; rfl
    · rw [work]; simp [powered, told]
    · rw [work]; simp [powered, told]
    · rw [work]; rfl
    · rw [isClosed, work]; simp [powered, told, isClosed]
    · rw [work]; simp [powered, told]
    · have changes : p ≠ (told v.toNat (taken 3 s)).vehicle.powerMode := by simpa [told] using other
      have gate : updated v.toNat p (taken 3 s) = changePower p (told v.toNat (taken 3 s)) ∨
          updated v.toNat p (taken 3 s) = armSpeedLock (changePower p (told v.toNat (taken 3 s))) := by
        unfold updated
        dsimp only
        split
        · exact .inr rfl
        · exact .inl rfl
      rw [changePower_other changes] at gate
      obtain e | e := gate
      · rw [e] at closed ⊢
        exact closeGate_delivered _ closed w
      · rw [e] at closed ⊢
        exact closeGate_delivered _ closed w
  case stale =>
    refine ⟨_, event_running _ runs, ?_⟩
    rw [speedStale, taken]
    refine ⟨?_, rfl, rfl, rfl, rfl⟩
    have old : ¬max s.now (x + Times.vehicleStateAge + 1) - x ≤ Times.vehicleStateAge := by omega
    simp [speedKnown, taken, clockTo, old]
  case expiry =>
    refine ⟨_, event_running _ runs, ?_⟩
    rw [retainedExpiry, retained]
    have work := closeGate_work { clockTo x s with vehicle := { (clockTo x s).vehicle with retained := none } }
    refine ⟨?_, ?_, fun closed w => ?_⟩
    · rw [(finishEvent_kept _).vehicle, endRetained, work]; rfl
    · rw [(finishEvent_kept _).now, endRetained, work]; rfl
    · rw [gateOpen_finishEvent] at closed
      rw [(finishEvent_kept _).inputs]
      exact closeGate_delivered _ closed w

/-! ### The supply and the wires -/

theorem rawQual_same {α : Type} [DecidableEq α] {x : α} {q : Qual α} (now : Nat) (h : q.raw = x) : rawQual x now q = q :=
  if_pos h

theorem rawQual_other {α : Type} [DecidableEq α] {x : α} {q : Qual α} (now : Nat) (h : q.raw ≠ x) :
    rawQual x now q = { q with raw := x, since := now } := if_neg h

/-- Settles O18. -/
theorem supplyAndWiresAreRead : Obligations.SupplyAndWiresAreRead := by
  refine ⟨fun mv s runs => ⟨holdAfter s.vehicle.supplyHold (min 65535 mv), event_running _ runs, fun out => ?_,
      fun low high => ?_, fun between => ?_⟩,
    ⟨fun x now q => ⟨rawQual_same now, rawQual_other now⟩, fun x now q => ⟨rawQual_same now, rawQual_other now⟩,
      fun x now q => ⟨rawQual_same now, rawQual_other now⟩, fun x now q => ⟨rawQual_same now, rawQual_other now⟩,
      fun x now p => ⟨fun h => if_pos h, fun h => if_neg h⟩, rfl, rfl, rfl, rfl⟩,
    fun s => ⟨fun _ _ => rfl, fun _ _ => rfl, fun _ _ => rfl, fun _ _ => rfl, fun _ _ => rfl, fun _ _ _ => rfl,
      fun _ => rfl, fun _ => rfl, fun _ _ => rfl, fun _ _ => rfl, fun _ => rfl, fun v => ⟨fun same => ?_, fun other => ?_⟩⟩⟩
  · unfold holdAfter
    split
    · simp only [Bool.not_eq_true', decide_eq_false_iff_not]; omega
    · simp only [decide_eq_true_eq]; omega
  · unfold holdAfter
    split
    · simp only [Bool.not_eq_false', decide_eq_true_eq]; omega
    · simp only [decide_eq_false_iff_not]; omega
  · unfold holdAfter
    split
    · next held => rw [held]; simp only [Bool.not_eq_true', decide_eq_false_iff_not]; omega
    · next clear => rw [Bool.not_eq_true] at clear; rw [clear]; simp only [decide_eq_false_iff_not]; omega
  · show Host.Outcome.next (setInputs { s.inputs with crashLine := if s.inputs.crashLine.asserted = v then _ else _ } s) = _
    rw [if_pos same]
    rfl
  · show Host.Outcome.next (setInputs { s.inputs with crashLine := if s.inputs.crashLine.asserted = v then _ else _ } s) = _
    rw [if_neg other]
    rfl

end Sys2Proof.Machine

/-! Ajar switches and pads qualified (03, R53, R56). -/

namespace Sys2Proof.Machine

open Sys2Proof

theorem Settled.inputs {s : State} (h : Settled s) (x : Inputs) : Settled (setInputs x s) := h.of_runs h.1 rfl

theorem Settled.wake {s : State} (h : Settled s) (w : WakeSource) : Settled (wake w s) :=
  h.of_runs (by simpa using h.1) (by simp)

theorem Settled.requestSearch {s : State} (h : Settled s) (z : Zone) (p : Purpose) (l : List SearchWaiter) :
    Settled (requestSearch z p l s) := h.of_runs (by simpa using h.1) (by simp)

theorem due_of_ne {α : Type} [DecidableEq α] {q : Qual α} (b : Bool) (h : q.raw ≠ q.value) : due b q = true := by
  simp [due, h]

/-- An event of a part that runs. -/
theorem exec_qualify (i : Input) {s : State} (runs : s.power = .running) :
    exec (.qualificationTimeExpiry i) s = .next (finishEvent (qualify i s)) :=
  event_running (fun s => finishEvent (qualify i s)) runs

/-- A qualification that takes a value. -/
theorem exec_qualify_ajar {a : Aperture} {s : State} (runs : s.power = .running)
    (h : (s.inputs.ajar.get a).raw ≠ (s.inputs.ajar.get a).value) :
    exec (.qualificationTimeExpiry (.ajar a)) s = .next (finishEvent (ajarDelivered a (s.inputs.ajar.get a).raw
      (setInputs { s.inputs with ajar := s.inputs.ajar.set a (qualified (s.inputs.ajar.get a)) }
        (clockTo ((s.inputs.ajar.get a).since + Times.ajarTime) s)))) := by
  rw [exec_qualify _ runs, qualify, if_pos (due_of_ne false h)]

theorem ajarDelivered_closed {a : Aperture} {s : State} : ajarDelivered a false s = testSpeedLock (wake .ajar s) := rfl

/-- The part with the speed lock armed and no relock to come, as an opening leaves it. -/
def opened (s : State) : State := { s with engine := { s.engine with armed := true, relock := none } }

theorem ajarDelivered_front {a : Aperture} {s : State} (front : a = .fl ∨ a = .fr) : ajarDelivered a true s =
    closeGate { opened (wake .ajar s) with vehicle := { (opened (wake .ajar s)).vehicle with retained := none } } :=
  if_pos front

theorem ajarDelivered_other {a : Aperture} {s : State} (other : ¬(a = .fl ∨ a = .fr)) :
    ajarDelivered a true s = opened (wake .ajar s) := if_neg other

/-- The part with a pad awaiting release, as a touch leaves it, before the touch is told. -/
def touching (p : Pad) (s : State) : State :=
  setInputs (setPad p { padAt s.inputs p with ready := false } s.inputs)
    (clockTo ((padAt s.inputs p).since + Times.touchTime) s)

theorem padExpiry_touch {p : Pad} {s : State} (ready : (padAt s.inputs p).ready = true)
    (contact : (padAt s.inputs p).contact = true) : padExpiry p s = touched p (touching p s) := by
  unfold padExpiry
  dsimp only
  split
  · rfl
  · next e _ => rw [ready] at e; cases e
  · next e => rw [contact] at e; cases e
  · next e _ => rw [ready] at e; cases e

theorem padExpiry_release {p : Pad} {s : State} (unready : (padAt s.inputs p).ready = false)
    (away : (padAt s.inputs p).contact = false) : padExpiry p s =
      setInputs (setPad p { padAt s.inputs p with ready := true } s.inputs)
        (clockTo ((padAt s.inputs p).since + Times.padReleaseTime) s) := by
  unfold padExpiry
  dsimp only
  split
  · next e _ => rw [unready] at e; cases e
  · rfl
  · next e _ => rw [unready] at e; cases e
  · next e => rw [away] at e; cases e

theorem touched_off (p : Pad) {s : State} (off : s.vehicle.powerMode = .off) :
    touched p s = requestSearch (padSearch p).1 (padSearch p).2 [] (wake .touch s) :=
  if_pos (by simpa using off)

theorem touched_on (p : Pad) {s : State} (on : s.vehicle.powerMode ≠ .off) : touched p s = wake .touch s :=
  if_neg (by simpa using on)

theorem padAt_setPad_same (p : Pad) (v : PadState) (x : Inputs) : padAt (setPad p v x) p = v := by cases p <;> rfl

/-- A search that nothing awaits and none carries out joins an empty queue as its only request. -/
theorem requestSearch_entry {z : Zone} {p : Purpose} {l : List SearchWaiter} {s : State} (free : s.entry.search = none)
    (empty : s.entry.queue = []) : (requestSearch z p l s).entry =
      { s.entry with queue := [{ zone := z, purpose := p, waiters := l }] } := by
  simp [requestSearch, free, joinQueue, empty]

/-- Settles O20. -/
theorem ajarChangesAndTouchesAreDelivered : Obligations.AjarChangesAndTouchesAreDelivered := by
  refine ⟨fun a s runs changes => ?ajar, fun p s runs contact => ⟨fun unready settled => ?held, fun ready =>
    ⟨wake_mode _ _, fun off => ?search, fun on => ?none⟩, fun ready settled off free empty => ?queued⟩,
    ⟨⟨rfl, rfl, rfl, rfl⟩, fun p s runs settled away => ⟨fun ready => ?still, fun unready => ?released⟩⟩⟩
  case ajar =>
    have meaning := exec_qualify_ajar runs changes
    dsimp only
    rw [meaning]
    generalize set : setInputs { s.inputs with ajar := s.inputs.ajar.set a (qualified (s.inputs.ajar.get a)) }
        (clockTo ((s.inputs.ajar.get a).since + Times.ajarTime) s) = s0
    have value : ((wake .ajar s0).inputs.ajar.get a).value = (s.inputs.ajar.get a).raw := by
      rw [wake_inputs, ← set]
      simp [setInputs, Five.get_set, qualified]
    have now : (wake .ajar s0).now = max s.now ((s.inputs.ajar.get a).since + Times.ajarTime) := by
      rw [wake_now, ← set]
      rfl
    have vehicle : (wake .ajar s0).vehicle = s.vehicle := by rw [wake_vehicle, ← set]; rfl
    have latches : (wake .ajar s0).latches = s.latches := by rw [wake_latches, ← set]; rfl
    have front := fun f : a = .fl ∨ a = .fr =>
      closeGate_work { opened (wake .ajar s0) with vehicle := { (opened (wake .ajar s0)).vehicle with retained := none } }
    refine ⟨fun closes => ?_, fun opens notFl notFr => ?_, fun opens isFront => ⟨_, rfl, ?_⟩, ?_⟩
    · rw [closes, ajarDelivered_closed]
    · rw [opens, ajarDelivered_other (by simp [notFl, notFr])]
      rfl
    · rw [opens, ajarDelivered_front isFront]
      refine ⟨?_, ?_, ?_, ?_, ?_, ?_, fun closed w => closeGate_delivered _ closed w⟩
      · rw [front isFront]; rfl
      · rw [front isFront, ← vehicle]; rfl
      · rw [front isFront]; exact latches
      · rw [front isFront]; rfl
      · rw [front isFront]; rfl
      · rw [front isFront]; rfl
    · refine ⟨_, rfl, ?_⟩
      cases e : (s.inputs.ajar.get a).raw with
      | false =>
        rw [ajarDelivered_closed]
        simp only [testSpeedLock_same]
        exact ⟨value.trans e, wake_mode _ _, now, nofun⟩
      | true =>
        by_cases isFront : a = .fl ∨ a = .fr
        · rw [ajarDelivered_front isFront, front isFront]
          exact ⟨value.trans e, wake_mode _ _, now, fun _ => ⟨rfl, rfl, fun _ => rfl⟩⟩
        · rw [ajarDelivered_other isFront]
          exact ⟨value.trans e, wake_mode _ _, now, fun _ => ⟨rfl, rfl, fun f => absurd f isFront⟩⟩
  case held =>
    rw [exec_qualify _ runs]
    have stays : qualify (.pad p) s = s := by simp [qualify, padExpiry, unready, contact]
    rw [stays, finishEvent_settled settled]
  case search =>
    rw [exec_qualify _ runs, qualify, padExpiry_touch ready contact, touched_off p (by exact off)]
    rfl
  case none =>
    rw [exec_qualify _ runs, qualify, padExpiry_touch ready contact, touched_on p (by exact on)]
    rfl
  case queued =>
    have after : Settled (requestSearch (padSearch p).1 (padSearch p).2 [] (wake .touch (touching p s))) :=
      (((settled.clockTo _).inputs _).wake .touch).requestSearch _ _ _
    refine ⟨_, by rw [exec_qualify _ runs, qualify, padExpiry_touch ready contact, touched_off p (by exact off),
      finishEvent_settled after], ?_, ?_, ?_⟩
    · simp [touching, setInputs, padAt_setPad_same]
    · rw [requestSearch_entry (by simpa [touching] using free) (by simpa [touching] using empty)]
    · simp [touching, clockTo]
  case still =>
    rw [exec_qualify _ runs]
    have stays : qualify (.pad p) s = s := by simp [qualify, padExpiry, ready, away]
    rw [stays, finishEvent_settled settled]
  case released =>
    rw [exec_qualify _ runs]
    rw [qualify, padExpiry_release unready away, finishEvent_settled ((settled.clockTo _).inputs _)]

end Sys2Proof.Machine

/-! The controls qualified and what they deliver (03, R50 to R55): handles, rockers, buttons, window switches. -/

namespace Sys2Proof.Machine

open Sys2Proof

theorem option_any_iff {α : Type} {o : Option α} {f : α → Bool} :
    o.any f = true ↔ ∃ x, o = some x ∧ f x = true := by
  cases o <;> simp

theorem option_any_false {α : Type} {o : Option α} {f : α → Bool} :
    o.any f = false ↔ ∀ x, o = some x → f x = false := by
  cases o <;> simp

/-! ### A window switch's position delivered (03, R49 to R51) -/

theorem switchDelivery_locked {d : Door} {own : Bool} (old new : SwitchPos) {s : State} (o : own = true)
    (locked : childLocked s d = true) : switchDelivery d own old new s = s := by
  rw [switchDelivery_eq, o, locked]
  rfl

theorem switchDelivery_given {d : Door} {own : Bool} (old new : SwitchPos) {s : State}
    (free : own = false ∨ childLocked s d = false) : switchDelivery d own old new s = switchGiven d own old new s := by
  rw [switchDelivery_eq, if_neg]
  obtain h | h := free <;> simp [h]

section
variable {d : Door} {own : Bool} {old new : SwitchPos} {dir : Direction} {s : State}

theorem switchGiven_reversing (r : reversing (windowAt s d) = true) : switchGiven d own old new s =
    if new = .neutral then setWindow d (setConsumed own false (windowAt s d)) s
    else if old = .neutral then setWindow d (setConsumed own true (windowAt s d)) s
    else s := if_pos r

theorem switchGiven_neutral (r : reversing (windowAt s d) = false) :
    switchGiven d own old .neutral s = switchNeutral d own s := by
  rw [switchGiven, if_neg (by simp [r])]
  rfl

theorem switchGiven_direction (r : reversing (windowAt s d) = false) (h : switchDirection new = some dir) :
    switchGiven d own old new s =
      if consumed (windowAt s d) own then s
      else if switchDirection old = some dir then
        (if isAuto new && !isAuto old then switchUpgrade d dir own s else s)
      else switchPress d dir (isAuto new) own s := by
  rw [switchGiven, if_neg (by simp [r]), h]

/-- A movement asked for at the first detent of this switch. -/
def Mine (own : Bool) (m : Movement) : Prop := m.mode = .held ∧ m.requester = switchRequester own

theorem heldBy_iff {m : Movement} : heldBy own m = true ↔ Mine own m := by simp [heldBy, Mine]

theorem isAutomatic_iff {m : Movement} : isAutomatic m = true ↔ m.mode = .toEnd ∨ m.mode = .toPosition := by
  simp [isAutomatic]

/-- A movement in progress of some kind. -/
def Moving (w : Window) (f : Movement → Prop) : Prop := inProgress w = true ∧ ∃ m, w.motion = some m ∧ f m.move

theorem moving_iff {w : Window} {f : Movement → Bool} :
    (inProgress w && w.motion.any fun m => f m.move) = true ↔ Moving w fun m => f m = true := by
  simp only [Bool.and_eq_true, option_any_iff, Moving]

theorem setConsumed_motion (x : Bool) (w : Window) : (setConsumed own x w).motion = w.motion := by
  unfold setConsumed; split <;> rfl

theorem setConsumed_followOn (x : Bool) (w : Window) : (setConsumed own x w).followOn = w.followOn := by
  unfold setConsumed; split <;> rfl

theorem setConsumed_phase (x : Bool) (w : Window) : (setConsumed own x w).phase = w.phase := by
  unfold setConsumed; split <;> rfl

theorem setConsumed_inProgress (x : Bool) (w : Window) : inProgress (setConsumed own x w) = inProgress w := by
  rw [inProgress, inProgress, setConsumed_phase]

/-- The switch's mark set or cleared. -/
def markedWindow (d : Door) (own x : Bool) (s : State) : State := setWindow d (setConsumed own x (windowAt s d)) s

theorem switchNeutral_eq : switchNeutral d own s =
    if inProgress (windowAt s d) && (windowAt s d).motion.any (fun m => heldBy own m.move) then
      stopMovement d none (markedWindow d own false s)
    else if (windowAt s d).followOn.any (heldBy own) then removeFollowOn d none (markedWindow d own false s)
    else markedWindow d own false s := by
  simp only [switchNeutral, windowAt_setWindow_same, setConsumed_inProgress, setConsumed_motion, setConsumed_followOn]
  rfl

theorem switchRequest_auto (h : moveDenial s.latches.crashHold (windowAt s d) dir .toEnd = none) :
    switchRequest d dir true own s = (takeMovement d (plainMove dir .toEnd (switchRequester own) []) s).1 := by
  simp only [switchRequest, if_true, h]

theorem switchRequest_hold (h : moveDenial s.latches.crashHold (windowAt s d) dir .toEnd = some .crashHold) :
    switchRequest d dir true own s = s := by
  simp only [switchRequest, if_true, h]

/-- What the first detent asks for, or the automatic detent where it is denied for another reason than the crash hold. -/
theorem switchRequest_held {auto : Bool} (h : auto = false ∨
    (moveDenial s.latches.crashHold (windowAt s d) dir .toEnd ≠ none ∧
      moveDenial s.latches.crashHold (windowAt s d) dir .toEnd ≠ some .crashHold)) :
    switchRequest d dir auto own s =
      if (moveDenial s.latches.crashHold (windowAt s d) dir .held).isNone then
        (takeMovement d (plainMove dir .held (switchRequester own) []) s).1
      else s := by
  unfold switchRequest
  dsimp only
  cases auto with
  | false => rfl
  | true =>
    obtain h | ⟨denied, other⟩ := h
    · cases h
    · rw [if_pos rfl]
      split
      · next e => exact absurd e denied
      · next e => exact absurd e other
      · rfl

theorem switchDirection_neutral : switchDirection .neutral = none := rfl

theorem ne_neutral_of_direction (h : switchDirection new = some dir) : new ≠ .neutral := by
  rintro rfl
  cases h

end

section
variable {d : Door} {own : Bool} {old new : SwitchPos} {dir : Direction} {s : State}

theorem switchNeutral_stops (h : Moving (windowAt s d) (Mine own)) :
    switchNeutral d own s = stopMovement d none (markedWindow d own false s) := by
  obtain ⟨moves, m, motion, mine⟩ := h
  rw [switchNeutral_eq, if_pos (moving_iff.2 ⟨moves, m, motion, heldBy_iff.2 mine⟩)]

theorem switchNeutral_removes {f : Movement} (h : ¬Moving (windowAt s d) (Mine own))
    (k : (windowAt s d).followOn = some f) (mine : Mine own f) :
    switchNeutral d own s = removeFollowOn d none (markedWindow d own false s) := by
  rw [switchNeutral_eq, if_neg fun e => h ?_, if_pos (option_any_iff.2 ⟨f, k, heldBy_iff.2 mine⟩)]
  obtain ⟨moves, m, motion, held⟩ := moving_iff.1 e
  exact ⟨moves, m, motion, heldBy_iff.1 held⟩

theorem switchNeutral_marks (h : ¬Moving (windowAt s d) (Mine own))
    (k : ∀ f, (windowAt s d).followOn = some f → ¬Mine own f) : switchNeutral d own s = markedWindow d own false s := by
  rw [switchNeutral_eq, if_neg fun e => h ?_, if_neg fun e => ?_]
  · obtain ⟨f, some, held⟩ := option_any_iff.1 e
    exact k f some (heldBy_iff.1 held)
  · obtain ⟨moves, m, motion, held⟩ := moving_iff.1 e
    exact ⟨moves, m, motion, heldBy_iff.1 held⟩

/-- A movement to an end or to a position. -/
def Automatic (m : Movement) : Prop := m.mode = .toEnd ∨ m.mode = .toPosition

theorem switchPress_stops (auto : Bool) (h : Moving (windowAt s d) Automatic) : switchPress d dir auto own s =
    markedWindow d own true (stopMovement d (some .overridden) s) := by
  obtain ⟨moves, m, motion, automatic⟩ := h
  rw [switchPress, if_pos (moving_iff.2 ⟨moves, m, motion, isAutomatic_iff.2 automatic⟩)]
  rfl

theorem not_moving_automatic (h : ¬Moving (windowAt s d) Automatic) :
    ¬(inProgress (windowAt s d) && (windowAt s d).motion.any fun m => isAutomatic m.move) = true := by
  intro e
  obtain ⟨moves, m, motion, automatic⟩ := moving_iff.1 e
  exact h ⟨moves, m, motion, isAutomatic_iff.1 automatic⟩

theorem switchPress_removes (auto : Bool) {f : Movement} (h : ¬Moving (windowAt s d) Automatic)
    (k : (windowAt s d).followOn = some f) (automatic : Automatic f) : switchPress d dir auto own s =
      markedWindow d own true (removeFollowOn d (some .overridden) s) := by
  rw [switchPress, if_neg (not_moving_automatic h), if_pos (option_any_iff.2 ⟨f, k, isAutomatic_iff.2 automatic⟩)]
  rfl

theorem switchPress_asks (auto : Bool) (h : ¬Moving (windowAt s d) Automatic)
    (k : ∀ f, (windowAt s d).followOn = some f → ¬Automatic f) :
    switchPress d dir auto own s = switchRequest d dir auto own s := by
  rw [switchPress, if_neg (not_moving_automatic h), if_neg fun e => ?_]
  obtain ⟨f, some, automatic⟩ := option_any_iff.1 e
  exact k f some (isAutomatic_iff.1 automatic)

/-- The movement of this switch's first detent, in this direction. -/
def MineToward (own : Bool) (dir : Direction) (m : Movement) : Prop := Mine own m ∧ m.dir = dir

theorem mineToward_iff {m : Movement} : (heldBy own m && m.dir = dir) = true ↔ MineToward own dir m := by
  simp only [Bool.and_eq_true, heldBy_iff, decide_eq_true_eq, MineToward]

theorem switchUpgrade_eq : switchUpgrade d dir own s =
    if (inProgress (windowAt s d) && (windowAt s d).motion.any fun m => heldBy own m.move && m.move.dir = dir) ||
        (windowAt s d).followOn.any fun m => heldBy own m && m.dir = dir then
      if (moveDenial s.latches.crashHold (windowAt s d) dir .toEnd).isNone then
        (takeMovement d (plainMove dir .toEnd (switchRequester own) []) s).1
      else s
    else s := rfl

theorem mine_toward_iff : ((inProgress (windowAt s d) && (windowAt s d).motion.any fun m =>
      heldBy own m.move && m.move.dir = dir) || (windowAt s d).followOn.any fun m => heldBy own m && m.dir = dir) = true ↔
    Moving (windowAt s d) (MineToward own dir) ∨ ∃ f, (windowAt s d).followOn = some f ∧ MineToward own dir f := by
  rw [Bool.or_eq_true, moving_iff (f := fun m => heldBy own m && m.dir = dir), option_any_iff]
  simp only [mineToward_iff]

theorem switchUpgrade_asks (h : Moving (windowAt s d) (MineToward own dir) ∨
    ∃ f, (windowAt s d).followOn = some f ∧ MineToward own dir f) : switchUpgrade d dir own s =
      if (moveDenial s.latches.crashHold (windowAt s d) dir .toEnd).isNone then
        (takeMovement d (plainMove dir .toEnd (switchRequester own) []) s).1
      else s := by
  rw [switchUpgrade_eq, if_pos (mine_toward_iff.2 h)]

theorem switchUpgrade_nothing (h : ¬Moving (windowAt s d) (MineToward own dir))
    (k : ∀ f, (windowAt s d).followOn = some f → ¬MineToward own dir f) : switchUpgrade d dir own s = s := by
  rw [switchUpgrade_eq, if_neg fun e => ?_]
  obtain moving | ⟨f, some, mine⟩ := mine_toward_iff.1 e
  · exact h moving
  · exact k f some mine

theorem exists_direction (h : new ≠ .neutral) : ∃ dir, switchDirection new = some dir := by
  cases new with
  | neutral => exact absurd rfl h
  | opening => exact ⟨_, rfl⟩
  | openAuto => exact ⟨_, rfl⟩
  | closing => exact ⟨_, rfl⟩
  | closeAuto => exact ⟨_, rfl⟩

end

/-! ### The Latch Units' own inputs (04, R67, R68) -/

theorem takeOrDefer_cases (x : Deferred) (s : State) : (mayTake s x = true → takeOrDefer x s = takeNow x s) ∧
    (mayTake s x = false → takeOrDefer x s =
      { s with latches := { s.latches with deferred := s.latches.deferred ++ [x] } }) :=
  ⟨fun h => if_pos h, fun h => if_neg (by simp [h])⟩

theorem handlePull_eq {d : Door} {s : State} {b : Bool} (h : pullUnlocks s d = b) : handlePull d s =
    if b then (requestLatch (doorAperture d) .unlocked .handle [] s).1 else s := by rw [handlePull, h]

theorem pullUnlocks_eq (s : State) (d : Door) : pullUnlocks s d = (!childLocked s d &&
    match (latchAt s (doorAperture d)).sensed with
    | .deadlocked => false
    | .locked => !latchGoes (latchAt s (doorAperture d)) (· = .unlocked)
    | .unlocked => latchGoes (latchAt s (doorAperture d)) (· ≠ .unlocked)
    | .invalid => false) := rfl

/-- A request that nothing new awaits joins its queue once, however often it is made. -/
theorem requestSearch_idem (z : Zone) (p : Purpose) (s : State) :
    requestSearch z p [] (requestSearch z p [] s) = requestSearch z p [] s := by
  have joined : ∀ q : List SearchRequest, joinQueue z p [] (joinQueue z p [] q) = joinQueue z p [] q := by
    intro q
    have same : ∀ l : List SearchRequest,
        l.map (fun r => if r.zone = z ∧ r.purpose = p then { r with waiters := r.waiters ++ [] } else r) = l := by
      intro l
      refine (List.map_congr_left fun r _ => ?_).trans (List.map_id l)
      simp
    have stands : (joinQueue z p [] q).any (fun r => r.zone = z && r.purpose = p) = true := by
      unfold joinQueue
      split
      · next h => rw [same]; exact h
      · simp
    conv => lhs; rw [joinQueue]
    rw [if_pos stands, same]
  cases e : s.entry.search with
  | none => simp [requestSearch, e, joined]
  | some f =>
    by_cases h : f.zone = z ∧ f.purpose = p
    · simp [requestSearch, e, h]
    · simp [requestSearch, e, h, joined]

theorem foldl_requestSearch (z : Zone) (p : Purpose) {α : Type} (l : List α) (s : State) :
    l.foldl (fun s _ => requestSearch z p [] s) (requestSearch z p [] s) = requestSearch z p [] s := by
  induction l with
  | nil => rfl
  | cons x l ih => rw [List.foldl_cons, requestSearch_idem, ih]

theorem routeWaiting_locked {s : State} (locked : (latchAt s .tg).sensed = .locked) : routeWaiting s =
    (s.latches.deferred.filter (· = .release)).foldl (fun s _ => requestSearch .rear .tailgateButton [] s)
      { s with latches := { s.latches with deferred := s.latches.deferred.filter (· ≠ .release) } } := if_pos locked

theorem routeWaiting_none {s : State} (locked : (latchAt s .tg).sensed = .locked)
    (none : .release ∉ s.latches.deferred) : routeWaiting s = s := by
  have empty : s.latches.deferred.filter (· = .release) = [] :=
    List.filter_eq_nil_iff.2 fun x m => by simpa using fun e : x = .release => none (e ▸ m)
  have all : s.latches.deferred.filter (· ≠ .release) = s.latches.deferred :=
    List.filter_eq_self.2 fun x m => by simpa using fun e : x = .release => none (e ▸ m)
  rw [routeWaiting_locked locked, empty, all]
  rfl

theorem routeWaiting_some {s : State} (locked : (latchAt s .tg).sensed = .locked)
    (some : .release ∈ s.latches.deferred) : routeWaiting s = requestSearch .rear .tailgateButton []
      { s with latches := { s.latches with deferred := s.latches.deferred.filter (· ≠ .release) } } := by
  have inside : .release ∈ s.latches.deferred.filter (· = .release) := List.mem_filter.2 ⟨some, by simp⟩
  rw [routeWaiting_locked locked]
  obtain ⟨x, l, e⟩ := List.exists_cons_of_ne_nil (List.ne_nil_of_mem inside)
  rw [e, List.foldl_cons, foldl_requestSearch]

end Sys2Proof.Machine

/-! The controls' qualification and delivery, assembled. -/

namespace Sys2Proof.Machine

open Sys2Proof

/-! ### One input's qualification -/

section
variable {s : State}

theorem qualify_handle (d : Door) (s : State) : qualify (.handle d) s =
    let q := s.inputs.handle.get d
    let s1 := setInputs { s.inputs with handle := s.inputs.handle.set d (qualified q) } (clockTo (q.since + ms 20) s)
    if due true q then if q.first && q.raw then takeOrDefer (.pull d) (wake .handle s1) else s1 else s := rfl

theorem qualify_rocker (f : Front) (s : State) : qualify (.rocker f) s =
    let q := s.inputs.rocker.get f
    let s1 := setInputs { s.inputs with rocker := s.inputs.rocker.set f (qualified q) } (clockTo (q.since + ms 20) s)
    if due true q then
      if q.first && q.raw ≠ .neutral then takeOrDefer (.rocker f (q.raw = .lock)) (wake .rocker s1) else s1
    else s := rfl

theorem qualify_childButton (s : State) : qualify .childButton s =
    let q := s.inputs.childButton
    let s1 := setInputs { s.inputs with childButton := qualified q } (clockTo (q.since + ms 20) s)
    if due true q then if q.first && q.raw then takeOrDefer .childButton s1 else s1 else s := rfl

theorem qualify_tailgateButton (s : State) : qualify .tailgateButton s =
    let q := s.inputs.tailgateButton
    let s1 := setInputs { s.inputs with tailgateButton := qualified q } (clockTo (q.since + ms 20) s)
    if due true q then if q.first && q.raw then tailgatePressed (wake .tailgateButton s1) else s1 else s := rfl

theorem qualify_childSwitch (r : Rear) (s : State) : qualify (.childSwitch r) s =
    let q := s.inputs.childSwitch.get r
    let s1 := setInputs { s.inputs with childSwitch := s.inputs.childSwitch.set r (qualified q) }
      (clockTo (q.since + ms 20) s)
    if due true q then childSensed r q.raw (!q.first) s1 else s := rfl

theorem qualify_pair (a : Aperture) (s : State) : qualify (.pair a) s =
    let q := s.inputs.pair.get a
    let s1 := setInputs { s.inputs with pair := s.inputs.pair.set a (qualified q) } (clockTo (q.since + ms 20) s)
    if due true q then pairDelivered a q.raw (!q.first) s1 else s := rfl

theorem qualify_windowSwitch (w : WinSwitch) (s : State) : qualify (.windowSwitch w) s =
    if due false (switchAt s.inputs w).pos then
      switchQualified w (clockTo ((switchAt s.inputs w).pos.since + ms 20) s)
    else s := rfl

theorem due_false_of_eq {α : Type} [DecidableEq α] {q : Qual α} (h : q.raw = q.value) : due false q = false := by
  simp [due, h]

/-- A switch's sense at a child lock is what its wires read. -/
theorem childSensed_sensed (r : Rear) (q first : Bool) (s : State) : (childAt (childSensed r q first s) r).sensed = q := by
  have finished : ∀ (a : Aperture) (o : OpOutcome) (x : State), childAt (finishDrive a o x) r = childAt x r := by
    intro a o x
    unfold finishDrive
    split
    · rfl
    · simp only [childAt, tell_latches]
      unfold endDrive
      dsimp only
      split <;> rfl
  have set : ∀ (c : ChildLock) (x : State), childAt (setChild r c x) r = c := fun c x => by
    rw [childAt_setChild, if_pos rfl]
  unfold childSensed
  dsimp only
  split
  · split
    · split
      · rw [finished, set]
      · rw [set]
    · split
      · rw [set]
      · rw [set, set]
  · split
    · rw [set]
    · rw [set, set]

end

/-- Settles O21. -/
theorem controlsAreQualifiedAndDelivered : Obligations.ControlsAreQualifiedAndDelivered := by
  refine ⟨fun s runs => ⟨fun d => ?handle, fun f => ?rocker, ?childButton, ?tailgateButton, fun r => ?childSwitch,
    fun w => ?windowSwitch⟩, takeOrDefer_cases, fun d s => ?pull, fun f l s => ?rockerTaken, fun s => ?childTaken,
    fun s => ?tailgate, fun d own old new s => ?delivery⟩
  case handle =>
    simp only [exec_qualify _ runs, qualify_handle]
    refine ⟨fun due first raw => ?_, fun due not => ?_, fun still => ?_⟩
    · rw [if_pos due, if_pos (by simp [first, raw])]
    · rw [if_pos due, if_neg (by obtain h | h := not <;> simp [h])]
    · rw [if_neg (by simp [still])]
  case rocker =>
    simp only [exec_qualify _ runs, qualify_rocker]
    refine ⟨fun due first raw => ?_, fun due not => ?_, fun still => ?_⟩
    · rw [if_pos due, if_pos (by simp [first, raw])]
    · rw [if_pos due, if_neg (by obtain h | h := not <;> simp [h])]
    · rw [if_neg (by simp [still])]
  case childButton =>
    simp only [exec_qualify _ runs, qualify_childButton]
    refine ⟨fun due first raw => ?_, fun due not => ?_, fun still => ?_⟩
    · rw [if_pos due, if_pos (by simp [first, raw])]
    · rw [if_pos due, if_neg (by obtain h | h := not <;> simp [h])]
    · rw [if_neg (by simp [still])]
  case tailgateButton =>
    simp only [exec_qualify _ runs, qualify_tailgateButton]
    refine ⟨fun due first raw => ?_, fun due not => ?_, fun still => ?_⟩
    · rw [if_pos due, if_pos (by simp [first, raw])]
    · rw [if_pos due, if_neg (by obtain h | h := not <;> simp [h])]
    · rw [if_neg (by simp [still])]
  case childSwitch =>
    simp only [exec_qualify _ runs, qualify_childSwitch]
    refine ⟨fun due => by rw [if_pos due], fun due => ⟨_, rfl, ?_⟩, fun still => by rw [if_neg (by simp [still])]⟩
    rw [if_pos due]
    simp only [childSensed_sensed, childSensed_same, true_and]
    exact ⟨by simp [setInputs, Rears.get_set, qualified], rfl⟩
  case windowSwitch =>
    simp only [exec_qualify _ runs, qualify_windowSwitch]
    have same : switchAt (clockTo ((switchAt s.inputs w).pos.since + ms 20) s).inputs w = switchAt s.inputs w := rfl
    refine ⟨fun other => ?_, fun equal => by rw [if_neg (by simp [due_false_of_eq equal])]⟩
    rw [if_pos (due_of_ne false other), switchQualified, same]
    refine ⟨fun neutral => by rw [if_pos neutral]; rfl, fun pressed opens => ?_, fun pressed closed => ?_⟩
    · rw [if_neg pressed]
      refine congrArg (fun x => Host.Outcome.next (finishEvent x)) ?_
      exact if_pos opens
    · rw [if_neg pressed]
      refine congrArg (fun x => Host.Outcome.next (finishEvent x)) ?_
      exact if_neg (show ¬gateOpen s = true by simp [closed])
  case pull =>
    refine ⟨fun bars => ?_, fun free locked => ⟨fun not => ?_, fun goes => ?_⟩, fun free unlocked =>
      ⟨fun goes => ?_, fun not => ?_⟩⟩
    · have no : pullUnlocks s d = false := by
        rw [pullUnlocks_eq]
        obtain h | h | h := bars <;> simp [h]
      exact handlePull_eq no
    · have yes : pullUnlocks s d = true := by simp [pullUnlocks_eq, free, locked, not]
      exact handlePull_eq yes
    · have no : pullUnlocks s d = false := by simp [pullUnlocks_eq, locked, goes]
      exact handlePull_eq no
    · have yes : pullUnlocks s d = true := by
        rw [pullUnlocks_eq, free, unlocked]
        exact goes
      exact handlePull_eq yes
    · have no : pullUnlocks s d = false := by
        rw [pullUnlocks_eq, free, unlocked]
        exact not
      exact handlePull_eq no
  case rockerTaken => exact ⟨fun dead => if_pos dead, fun not => if_neg not⟩
  case childTaken =>
    refine ⟨fun left right => ?_, fun either => ?_⟩
    · simp only [takeNow, childPress, left, right, Bool.and_self, if_true]
    · have not : ((childAt s .rl).target && (childAt s .rr).target) = false := by obtain h | h := either <;> simp [h]
      simp only [takeNow, childPress, not, Bool.false_eq_true, if_false]
  case tailgate =>
    refine ⟨fun not => if_neg (by simp [not]), fun known => if_pos known, fun locked => if_pos locked,
      fun other => if_neg other, rfl, fun runs first => ?_, fun other => if_neg other,
      fun locked => ⟨routeWaiting_none locked, routeWaiting_some locked⟩⟩
    dsimp only
    have takes : due true (s.inputs.pair.get .tg) = true := by simp [due, first]
    rw [exec_qualify _ runs, qualify_pair]
    simp only [takes, if_true, pairDelivered, first, Bool.not_false, and_self]
  case delivery =>
    dsimp only
    refine ⟨switchDelivery_locked old new, fun free r => ?reversing,
      fun free r => ⟨fun neutral => ?neutral, fun pressed marked => ?marked, fun dir h fresh => ?direction⟩⟩
    case reversing =>
      rw [switchDelivery_given _ _ free, switchGiven_reversing r]
      exact ⟨fun n => if_pos n, fun n o => by rw [if_neg n, if_pos o], fun n o => by rw [if_neg n, if_neg o]⟩
    case neutral =>
      subst neutral
      rw [switchDelivery_given _ _ free, switchGiven_neutral r]
      refine ⟨fun m moves motion mine => switchNeutral_stops ⟨moves, m, motion, mine⟩, fun none => ?_⟩
      have still : ¬Moving (windowAt s d) (Mine own) := fun ⟨moves, m, motion, mine⟩ => none m moves motion mine
      exact ⟨fun f next mine => switchNeutral_removes still next mine, fun no => switchNeutral_marks still no⟩
    case marked =>
      obtain ⟨dir, h⟩ := exists_direction pressed
      rw [switchDelivery_given _ _ free, switchGiven_direction r h, if_pos marked]
    case direction =>
      rw [switchDelivery_given _ _ free, switchGiven_direction r h, if_neg (by simp [fresh])]
      refine ⟨fun turned => ?_, fun same => ?_⟩
      · rw [if_neg turned]
        refine ⟨fun m moves motion auto => switchPress_stops _ ⟨moves, m, motion, auto⟩, fun none => ?_⟩
        have still : ¬Moving (windowAt s d) Automatic := fun ⟨moves, m, motion, auto⟩ => none m moves motion auto
        refine ⟨fun f next auto => switchPress_removes _ still next auto, fun no => ?_⟩
        rw [switchPress_asks _ still no]
        refine ⟨fun auto free => ?_, fun auto hold => ?_, fun either => ?_⟩
        · rw [auto, switchRequest_auto free]
        · rw [auto, switchRequest_hold hold]
        · rw [switchRequest_held either]
          exact ⟨fun free => by rw [free]; rfl, fun denied => if_neg fun e => denied (Option.isNone_iff_eq_none.1 e)⟩
      · rw [if_pos same]
        refine ⟨fun either => if_neg ?_, fun auto detent => ?_⟩
        · obtain e | e := either <;> simp [e]
        · rw [if_pos (by simp [auto, detent])]
          refine ⟨fun mine => ?_, fun none no => switchUpgrade_nothing ?_ no⟩
          · rw [switchUpgrade_asks (by
              obtain ⟨m, moves, motion, own, toward⟩ | ⟨f, next, own, toward⟩ := mine
              · exact .inl ⟨moves, m, motion, own, toward⟩
              · exact .inr ⟨f, next, own, toward⟩)]
            exact ⟨fun free => by rw [free]; rfl, fun denied => if_neg fun e => denied (Option.isNone_iff_eq_none.1 e)⟩
          · exact fun ⟨moves, m, motion, own⟩ => none m moves motion own

end Sys2Proof.Machine

/-! The crash at one aperture, as one equation (04, R78 steps 2 to 4, R79, R81): the channel it leaves, the child lock, and
the parties told. -/

namespace Sys2Proof.Machine

open Sys2Proof

/-! ### Tables and outcomes told -/

@[simp] theorem Five.get_set_same {α : Type} (t : Five α) (a : Aperture) (x : α) : (t.set a x).get a = x := by
  rw [Five.get_set, if_pos rfl]

@[simp] theorem Five.set_set {α : Type} (t : Five α) (a : Aperture) (x y : α) : (t.set a x).set a y = t.set a y := by
  cases a <;> rfl

@[simp] theorem Five.set_get {α : Type} (t : Five α) (a : Aperture) : t.set a (t.get a) = t := by cases a <;> rfl

@[simp] theorem Rears.get_set_same {α : Type} (t : Rears α) (r : Rear) (x : α) : (t.set r x).get r = x := by
  rw [Rears.get_set, if_pos rfl]

@[simp] theorem Rears.set_set {α : Type} (t : Rears α) (r : Rear) (x y : α) : (t.set r x).set r y = t.set r y := by
  cases r <;> rfl

/-- What a unit's outcome puts in the mail: a notice for each party of a chain's request (04, R61; 07, R137). -/
def notices (q : Requester) (g : List Tag) (a : Aperture) (o : Tag → OpOutcome) : List Notice :=
  match q with
  | .chain t => g.map fun n => { trigger := t, serial := n.serial, count := n.count, aperture := a, outcome := o n }
  | _ => []

theorem tell_eq_notices (q : Requester) (g : List Tag) (a : Aperture) (o : Tag → OpOutcome) (s : State) :
    tell q g a o s = { s with mail := s.mail ++ notices q g a o } := by
  unfold tell notices
  cases q <;> first
    | rfl
    | simp only [List.append_nil]

theorem mem_notices {t : Trigger} {g : List Tag} {n : Tag} (h : n ∈ g) (a : Aperture) (o : Tag → OpOutcome) :
    { trigger := t, serial := n.serial, count := n.count, aperture := a, outcome := o n } ∈ notices (.chain t) g a o :=
  List.mem_map.2 ⟨n, h, rfl⟩

/-! ### What the crash makes of a channel -/

/-- A drive that the crash leaves running: its own, at the latch (04, R79). -/
def crashKeeps (d : Drive) : Bool := d.requester = .crash && actuatorOf d.target ≠ .child

/-- The drive of a crash that starts now. -/
def crashDriveAt (now : Nat) : Drive := { target := .unlocked, requester := .crash, tags := [], start := now }

/-- A latch that stands open, qualified and sensed UNLOCKED, rests; any other is driven (04, R78). -/
def crashRest (now : Nat) (isOpen : Bool) (u : LatchUnit) : LatchUnit :=
  if isOpen then u else { u with credit := creditOf u now, drive := some (crashDriveAt now) }

/-- A Latch Unit as the crash leaves it. -/
def crashed (now : Nat) (isOpen : Bool) (u : LatchUnit) : LatchUnit :=
  let v := { u with held := none, target := .unlocked, fault := .none }
  match u.drive with
  | some d =>
    if crashKeeps d then v
    else crashRest now isOpen { v with drive := none, credit := u.credit - (now - d.start) / 1000, restFrom := now }
  | none => crashRest now isOpen v

/-- A child lock is driven or a request for it is held. -/
def childBusy (u : LatchUnit) : Bool :=
  u.held.any (fun h => actuatorOf h.target = .child) || u.drive.any fun d => actuatorOf d.target = .child

/-- The child locks with one's target at its sensed state, if `busy` and if the aperture has one (04, R78). -/
def childReturned (a : Aperture) (busy : Bool) (t : Rears ChildLock) : Rears ChildLock :=
  match apertureRear a with
  | some r => if busy then t.set r { t.get r with target := (t.get r).sensed } else t
  | none => t

/-- Who is told OVERRIDDEN at an aperture: the held request's requester, then that of a drive the crash ends. -/
def crashTold (a : Aperture) (u : LatchUnit) : List Notice :=
  (match u.held with
   | some h => notices h.requester h.tags a fun _ => .overridden
   | none => []) ++
  match u.drive with
  | some d => if crashKeeps d then [] else notices d.requester d.tags a fun _ => .overridden
  | none => []

theorem resetTarget_child (a : Aperture) (s : State) : resetTarget a .child s =
    { s with latches := { s.latches with child := childReturned a true s.latches.child } } := by
  unfold resetTarget childReturned
  cases apertureRear a <;> rfl

theorem childReturned_twice (a : Aperture) (x y : Bool) (t : Rears ChildLock) :
    childReturned a x (childReturned a y t) = childReturned a (y || x) t := by
  unfold childReturned
  cases apertureRear a with
  | none => rfl
  | some r => cases x <;> cases y <;> simp

theorem childReturned_false (a : Aperture) (t : Rears ChildLock) : childReturned a false t = t := by
  unfold childReturned
  cases apertureRear a <;> rfl

/-- The state with one channel, the child locks and the mail replaced: all that the crash touches at an aperture. -/
def withChannel (a : Aperture) (u : LatchUnit) (c : Rears ChildLock) (m : List Notice) (s : State) : State :=
  { s with latches := { s.latches with unit := s.latches.unit.set a u, child := c }, mail := m }

theorem withChannel_self (a : Aperture) (s : State) :
    withChannel a (latchAt s a) s.latches.child s.mail s = s := by
  simp only [withChannel, latchAt, Five.set_get]

@[simp] theorem withChannel_twice (a : Aperture) (u v : LatchUnit) (c e : Rears ChildLock) (m n : List Notice)
    (s : State) : withChannel a v e n (withChannel a u c m s) = withChannel a v e n s := by
  simp only [withChannel, Five.set_set]

section
variable (a : Aperture) (u : LatchUnit) (c : Rears ChildLock) (m : List Notice) (s : State)

@[simp] theorem latchAt_withChannel : latchAt (withChannel a u c m s) a = u := Five.get_set_same _ _ _

@[simp] theorem withChannel_child : (withChannel a u c m s).latches.child = c := rfl

@[simp] theorem withChannel_mail : (withChannel a u c m s).mail = m := rfl

@[simp] theorem withChannel_now : (withChannel a u c m s).now = s.now := rfl

@[simp] theorem pairQualified_withChannel (b : Aperture) : pairQualified (withChannel a u c m s) b = pairQualified s b := rfl

end

theorem dropHeld_channel (a : Aperture) (s : State) : dropHeld a s = withChannel a { latchAt s a with held := none }
    s.latches.child (s.mail ++ match (latchAt s a).held with
      | some h => notices h.requester h.tags a fun _ => .overridden
      | none => []) s := by
  unfold dropHeld
  cases e : (latchAt s a).held with
  | none =>
    have same : { latchAt s a with held := none } = latchAt s a := by rw [← e]
    simp only [same, List.append_nil, withChannel_self]
  | some h =>
    dsimp only
    rw [tell_eq_notices]
    rfl

theorem crashHeld_channel (a : Aperture) (s : State) : crashHeld a s = withChannel a { latchAt s a with held := none }
    (childReturned a ((latchAt s a).held.any fun h => actuatorOf h.target = .child) s.latches.child)
    (s.mail ++ match (latchAt s a).held with
      | some h => notices h.requester h.tags a fun _ => .overridden
      | none => []) s := by
  have dropped := dropHeld_channel a s
  unfold crashHeld
  cases e : (latchAt s a).held with
  | none =>
    have same : dropHeld a s = s := by simp only [dropHeld, e]
    rw [e, same] at dropped
    simpa [childReturned_false] using dropped
  | some h =>
    rw [e] at dropped
    dsimp only
    split
    · next k => rw [resetTarget_child, dropped]; simp [k, withChannel]
    · next k => rw [dropped]; simp [k, childReturned_false]

theorem overrideDrive_channel {a : Aperture} {d : Drive} {s : State} (h : (latchAt s a).drive = some d) :
    overrideDrive a s = withChannel a
      { latchAt s a with drive := none, credit := (latchAt s a).credit - (s.now - d.start) / 1000, restFrom := s.now }
      s.latches.child (s.mail ++ notices d.requester d.tags a fun _ => .overridden) s := by
  simp only [overrideDrive, endDrive, h, tell_eq_notices]
  rfl

theorem takeTarget_unlocked (a : Aperture) (s : State) : takeTarget a .unlocked s =
    withChannel a { latchAt s a with target := .unlocked, fault := .none } s.latches.child s.mail s := rfl

theorem crashDrive_channel (a : Aperture) (s : State) :
    crashUnlock.crashDrive a s = withChannel a
      (crashRest s.now (pairQualified s a && decide ((latchAt s a).sensed = .unlocked))
        { latchAt s a with target := .unlocked, fault := .none }) s.latches.child s.mail s := by
  unfold crashUnlock.crashDrive crashRest
  simp only [takeTarget_unlocked, pairQualified_withChannel, latchAt_withChannel, Bool.and_eq_true, decide_eq_true_eq]
  split
  · rfl
  · simp [beginDrive, withChannel, setLatch, crashDriveAt, latchAt]

/-- The crash at one aperture changes that channel, its child lock and the mail, and nothing else. -/
theorem crashAperture_channel (s : State) (a : Aperture) : crashAperture s a =
    withChannel a (crashed s.now (pairQualified s a && decide ((latchAt s a).sensed = .unlocked)) (latchAt s a))
      (childReturned a (childBusy (latchAt s a)) s.latches.child) (s.mail ++ crashTold a (latchAt s a)) s := by
  have held := crashHeld_channel a s
  unfold crashAperture crashed childBusy crashTold
  generalize (match (latchAt s a).held with
    | some h => notices h.requester h.tags a fun _ => OpOutcome.overridden
    | none => []) = told at held ⊢
  generalize ((latchAt s a).held.any fun h => decide (actuatorOf h.target = .child)) = busy at held ⊢
  rw [held]
  cases e : (latchAt s a).drive with
  | none =>
    have idle : crashChild a (withChannel a { latchAt s a with held := none }
        (childReturned a busy s.latches.child) (s.mail ++ told) s) = withChannel a { latchAt s a with held := none }
        (childReturned a busy s.latches.child) (s.mail ++ told) s := by simp [crashChild, e]
    rw [idle, crashUnlock]
    simp only [latchAt_withChannel, e]
    rw [crashDrive_channel]
    simp
  | some d =>
    by_cases child : actuatorOf d.target = .child
    · have stopped : crashChild a (withChannel a { latchAt s a with held := none }
          (childReturned a busy s.latches.child) (s.mail ++ told) s) =
          withChannel a { latchAt s a with
              held := none, drive := none, credit := (latchAt s a).credit - (s.now - d.start) / 1000, restFrom := s.now }
            (childReturned a (busy || true) s.latches.child)
            (s.mail ++ told ++ notices d.requester d.tags a fun _ => .overridden) s := by
        rw [crashChild]
        simp only [latchAt_withChannel, e, child, if_true]
        rw [overrideDrive_channel (d := d) (by simp), resetTarget_child]
        simp [withChannel, childReturned_twice, latchAt]
      rw [stopped, crashUnlock]
      simp only [latchAt_withChannel]
      rw [crashDrive_channel]
      simp [crashKeeps, child]
    · have idle : crashChild a (withChannel a { latchAt s a with held := none }
          (childReturned a busy s.latches.child) (s.mail ++ told) s) = withChannel a { latchAt s a with held := none }
          (childReturned a busy s.latches.child) (s.mail ++ told) s := by simp [crashChild, e, child]
      rw [idle, crashUnlock]
      simp only [latchAt_withChannel, e]
      by_cases crash : d.requester = .crash
      · simp [crash, child, crashKeeps, takeTarget_unlocked]
      · rw [if_neg crash, overrideDrive_channel (d := d) (by simp), withChannel_twice, crashDrive_channel]
        simp [crash, child, crashKeeps]

end Sys2Proof.Machine

/-! The crash at every aperture (04, R78, R79): each latch, each child lock, and who is told. -/

namespace Sys2Proof.Machine

open Sys2Proof

/-- A latch that its own sense shows UNLOCKED, so that the crash leaves it at rest. -/
def standsOpen (s : State) (a : Aperture) : Bool := pairQualified s a && decide ((latchAt s a).sensed = .unlocked)

/-- A Latch Unit as the crash leaves it in a state. -/
def crashedAt (s : State) (a : Aperture) : LatchUnit := crashed s.now (standsOpen s a) (latchAt s a)

theorem crashAperture_eq (s : State) (a : Aperture) : crashAperture s a =
    withChannel a (crashedAt s a) (childReturned a (childBusy (latchAt s a)) s.latches.child)
      (s.mail ++ crashTold a (latchAt s a)) s := crashAperture_channel s a

/-- Only the channels, the child locks and the mail differ. -/
def ChannelWork (s t : State) : Prop :=
  t = { s with latches := { s.latches with unit := t.latches.unit, child := t.latches.child }, mail := t.mail }

theorem ChannelWork.trans {s t u : State} (h : ChannelWork s t) (k : ChannelWork t u) : ChannelWork s u := by
  unfold ChannelWork at *
  rw [k, h]

theorem crashAperture_work (s : State) (a : Aperture) : ChannelWork s (crashAperture s a) := by
  rw [crashAperture_eq]
  rfl

theorem foldl_crashAperture_work (l : List Aperture) (s : State) : ChannelWork s (l.foldl crashAperture s) := by
  induction l generalizing s with
  | nil => rfl
  | cons a l ih => exact (crashAperture_work s a).trans (ih _)

theorem latchAt_crashAperture (s : State) (a b : Aperture) :
    latchAt (crashAperture s a) b = if a = b then crashedAt s b else latchAt s b := by
  rw [crashAperture_eq]
  refine (Five.get_set _ _ _ _).trans ?_
  split
  · next e => rw [e]
  · rfl

theorem crashedAt_of_work {s t : State} (h : ChannelWork s t) {a : Aperture} (k : latchAt t a = latchAt s a) :
    crashedAt t a = crashedAt s a := by
  have now : t.now = s.now := by rw [h]
  have inputs : t.inputs = s.inputs := by rw [h]
  simp only [crashedAt, standsOpen, pairQualified, k, now, inputs]

theorem latchAt_foldl_crashAperture {l : List Aperture} (nodup : l.Nodup) (s : State) (a : Aperture) :
    latchAt (l.foldl crashAperture s) a = if a ∈ l then crashedAt s a else latchAt s a := by
  induction l generalizing s with
  | nil => simp
  | cons b l ih =>
    rw [List.foldl_cons, ih (List.nodup_cons.1 nodup).2]
    by_cases same : b = a
    · have out : a ∉ l := same ▸ (List.nodup_cons.1 nodup).1
      rw [if_neg out, latchAt_crashAperture, if_pos same, if_pos (by simp [same])]
    · have kept : latchAt (crashAperture s b) a = latchAt s a := by rw [latchAt_crashAperture, if_neg same]
      have mem : a ∈ b :: l ↔ a ∈ l := by simp [Ne.symm same]
      rw [kept, crashedAt_of_work (crashAperture_work s b) kept]
      simp only [mem]

/-! ### The child locks -/

/-- The aperture of a rear door's child lock. -/
def lockOf (r : Rear) : Aperture := doorAperture (rearDoorOf r)

theorem apertureRear_lockOf (r : Rear) : apertureRear (lockOf r) = some r := by cases r <;> rfl

theorem lockOf_of_apertureRear {a : Aperture} {r : Rear} (h : apertureRear a = some r) : a = lockOf r := by
  cases a <;> cases h <;> rfl

/-- A child lock with its target at its sensed state. -/
def returned (c : ChildLock) : ChildLock := { c with target := c.sensed }

theorem childReturned_get (a : Aperture) (busy : Bool) (t : Rears ChildLock) (r : Rear) :
    (childReturned a busy t).get r = if a = lockOf r ∧ busy = true then returned (t.get r) else t.get r := by
  unfold childReturned
  cases e : apertureRear a with
  | none =>
    have not : a ≠ lockOf r := by
      rintro rfl
      rw [apertureRear_lockOf] at e
      cases e
    rw [if_neg fun h => not h.1]
  | some x =>
    have own : a = lockOf r ↔ x = r := by
      rw [lockOf_of_apertureRear e]
      cases x <;> cases r <;> simp [lockOf, rearDoorOf, doorAperture]
    cases busy with
    | false => simp
    | true =>
      simp only [if_true, Rears.get_set, own, and_true]
      split
      · next e => rw [e]; rfl
      · rfl

theorem childAt_crashAperture (s : State) (a : Aperture) (r : Rear) : childAt (crashAperture s a) r =
    if a = lockOf r ∧ childBusy (latchAt s a) = true then returned (childAt s r) else childAt s r := by
  rw [crashAperture_eq]
  exact childReturned_get _ _ _ _

theorem childAt_foldl_crashAperture {l : List Aperture} (nodup : l.Nodup) (s : State) (r : Rear) :
    childAt (l.foldl crashAperture s) r =
      if lockOf r ∈ l ∧ childBusy (latchAt s (lockOf r)) = true then returned (childAt s r) else childAt s r := by
  induction l generalizing s with
  | nil => simp
  | cons b l ih =>
    rw [List.foldl_cons, ih (List.nodup_cons.1 nodup).2, childAt_crashAperture]
    by_cases same : b = lockOf r
    · have out : lockOf r ∉ l := same ▸ (List.nodup_cons.1 nodup).1
      simp only [out, false_and, if_false, same, true_and, List.mem_cons, true_or]
    · have kept : latchAt (crashAperture s b) (lockOf r) = latchAt s (lockOf r) := by
        rw [latchAt_crashAperture, if_neg same]
      have mem : lockOf r ∈ b :: l ↔ lockOf r ∈ l := by simp [Ne.symm same]
      simp only [kept, same, false_and, if_false, mem]

/-! ### Who is told -/

theorem mail_crashAperture (s : State) (a : Aperture) :
    (crashAperture s a).mail = s.mail ++ crashTold a (latchAt s a) := by
  rw [crashAperture_eq]
  rfl

theorem mail_foldl_crashAperture {l : List Aperture} (nodup : l.Nodup) (s : State) :
    (l.foldl crashAperture s).mail = s.mail ++ l.flatMap fun a => crashTold a (latchAt s a) := by
  induction l generalizing s with
  | nil => simp
  | cons b l ih =>
    have kept : ∀ a ∈ l, crashTold a (latchAt (crashAperture s b) a) = crashTold a (latchAt s a) := by
      intro a m
      have other : b ≠ a := fun e => (List.nodup_cons.1 nodup).1 (e ▸ m)
      rw [latchAt_crashAperture, if_neg other]
    rw [List.foldl_cons, ih (List.nodup_cons.1 nodup).2, mail_crashAperture, List.flatMap_cons, List.append_assoc,
      List.flatMap_def, List.map_congr_left kept, ← List.flatMap_def]

/-! ### The Latch Units at a crash -/

theorem allApertures_nodup : allApertures.Nodup := by decide

theorem mem_allApertures (a : Aperture) : a ∈ allApertures := by cases a <;> decide

/-- A crash event is written down: none before it is in force, or pending. -/
def freshCrash (s : State) : Bool := if s.store.scanDone then !s.latches.crashHold else !s.latches.crashPending

/-- The part as the crash finds its latches: the hold in force, and written down if it was not. -/
def holding (s : State) : State :=
  if freshCrash s then offer .crash (.crash true) [] { s with latches := { s.latches with crashHold := true } }
  else { s with latches := { s.latches with crashHold := true } }

theorem crashLatches_eq (s : State) : crashLatches s = raise .crash (allApertures.foldl crashAperture (holding s)) := rfl

theorem holding_crashedAt (s : State) (a : Aperture) : crashedAt (holding s) a = crashedAt s a := by
  unfold holding
  split <;> rfl

theorem holding_latchAt (s : State) (a : Aperture) : latchAt (holding s) a = latchAt s a := by
  unfold holding
  split <;> rfl

theorem holding_childAt (s : State) (r : Rear) : childAt (holding s) r = childAt s r := by
  unfold holding
  split <;> rfl

theorem latchAt_crashLatches (s : State) (a : Aperture) : latchAt (crashLatches s) a = crashedAt s a := by
  rw [crashLatches_eq]
  refine (latchAt_foldl_crashAperture allApertures_nodup _ a).trans ?_
  rw [if_pos (mem_allApertures a), holding_crashedAt]

theorem childAt_crashLatches (s : State) (r : Rear) : childAt (crashLatches s) r =
    if childBusy (latchAt s (lockOf r)) = true then returned (childAt s r) else childAt s r := by
  rw [crashLatches_eq]
  refine (childAt_foldl_crashAperture allApertures_nodup _ r).trans ?_
  simp only [mem_allApertures, true_and, holding_latchAt, holding_childAt]

theorem mem_mail_crashLatches {s : State} {a : Aperture} {n : Notice} (h : n ∈ crashTold a (latchAt s a)) :
    n ∈ (crashLatches s).mail := by
  rw [crashLatches_eq, raise_mail, mail_foldl_crashAperture allApertures_nodup]
  refine List.mem_append_right _ (List.mem_flatMap.2 ⟨a, mem_allApertures a, ?_⟩)
  rw [holding_latchAt]
  exact h

theorem crashLatches_work (s : State) : ChannelWork (raise .crash (holding s)) (crashLatches s) := by
  rw [crashLatches_eq]
  have h := foldl_crashAperture_work allApertures (holding s)
  unfold ChannelWork at *
  generalize allApertures.foldl crashAperture (holding s) = x at h ⊢
  rw [h]
  rfl

theorem crashLatches_crashHold (s : State) : (crashLatches s).latches.crashHold = true := by
  rw [crashLatches_work s]
  unfold holding
  split <;> rfl

theorem crashLatches_raised (s : State) : raised .crash (crashLatches s) = true := raised_raise .crash _

theorem crashLatches_store (s : State) :
    (crashLatches s).store = if freshCrash s then (offer .crash (.crash true) [] s).store else s.store := by
  rw [crashLatches_work s]
  unfold holding
  split <;> rfl

/-! ### One channel -/

section
variable {now : Nat} {isOpen : Bool} {u : LatchUnit} {d : Drive}

theorem crashRest_fields (v : LatchUnit) : (crashRest now isOpen v).held = v.held ∧
    (crashRest now isOpen v).target = v.target ∧ (crashRest now isOpen v).fault = v.fault ∧
    (crashRest now isOpen v).sensed = v.sensed := by
  unfold crashRest
  split <;> exact ⟨rfl, rfl, rfl, rfl⟩

/-- The crash leaves no request held, the target UNLOCKED and no fault, whatever was driven. -/
theorem crashed_fields : (crashed now isOpen u).held = none ∧ (crashed now isOpen u).target = .unlocked ∧
    (crashed now isOpen u).fault = .none ∧ (crashed now isOpen u).sensed = u.sensed := by
  unfold crashed
  dsimp only
  split
  · split
    · exact ⟨rfl, rfl, rfl, rfl⟩
    · exact crashRest_fields _
  · exact crashRest_fields _

theorem crashed_idle (h : u.drive = none) : crashed now isOpen u =
    crashRest now isOpen { u with held := none, target := .unlocked, fault := .none } := by
  unfold crashed
  simp only [h]

theorem crashed_keeps (h : u.drive = some d) (k : crashKeeps d = true) : crashed now isOpen u =
    { u with held := none, target := .unlocked, fault := .none } := by
  unfold crashed
  simp only [h, k, if_true]

theorem crashed_ends (h : u.drive = some d) (k : crashKeeps d = false) : crashed now isOpen u =
    crashRest now isOpen { u with
      held := none, target := .unlocked, fault := .none, drive := none,
      credit := u.credit - (now - d.start) / 1000, restFrom := now } := by
  unfold crashed
  simp only [h, k, Bool.false_eq_true, if_false]

theorem crashRest_open (v : LatchUnit) (h : isOpen = true) : crashRest now isOpen v = v := if_pos h

theorem crashRest_driven (v : LatchUnit) (h : isOpen = false) : crashRest now isOpen v =
    { v with credit := creditOf v now, drive := some (crashDriveAt now) } := if_neg (by simp [h])

/-- What the crash leaves driven at a latch is driven to UNLOCKED by the crash. -/
theorem crashed_drive (own : ∀ x, u.drive = some x → x.requester = .crash → x.target = .unlocked)
    (h : (crashed now isOpen u).drive = some d) : d.target = .unlocked ∧ d.requester = .crash := by
  have rest : ∀ v : LatchUnit, v.drive = none → (crashRest now isOpen v).drive = some d →
      d.target = .unlocked ∧ d.requester = .crash := by
    intro v none k
    unfold crashRest at k
    split at k
    · rw [none] at k; cases k
    · cases k; exact ⟨rfl, rfl⟩
  cases e : u.drive with
  | none => 
    rw [crashed_idle e] at h
    refine rest _ ?_ h
    exact e
  | some x =>
    cases k : crashKeeps x with
    | true =>
      rw [crashed_keeps e k] at h
      obtain rfl : x = d := Option.some.inj (e.symm.trans h)
      have crash : x.requester = .crash := by simp [crashKeeps] at k; exact k.1
      exact ⟨own x e crash, crash⟩
    | false => rw [crashed_ends e k] at h; exact rest _ rfl h

end

/-- Settles O22. -/
theorem crashReleasesEveryLatch : Obligations.CrashReleasesEveryLatch := by
  intro s own
  refine ⟨crashLatches_crashHold s, crashLatches_raised s, fun a => ?_⟩
  rw [latchAt_crashLatches]
  obtain ⟨held, target, _, _⟩ := crashed_fields (now := s.now) (isOpen := standsOpen s a) (u := latchAt s a)
  refine ⟨held, target, fun d driven => crashed_drive (own a).1 driven, fun closed => ?_⟩
  have shut : standsOpen s a = false := by
    obtain h | h := closed <;> simp [standsOpen, h]
  unfold crashedAt
  cases e : (latchAt s a).drive with
  | none => rw [crashed_idle e, crashRest_driven _ shut]; rfl
  | some d =>
    cases k : crashKeeps d with
    | true => rw [crashed_keeps e k, e]; rfl
    | false => rw [crashed_ends e k, crashRest_driven _ shut]; rfl

end Sys2Proof.Machine

/-! The crash at the windows, and the crash line (03, R57; 05, R93). -/

namespace Sys2Proof.Machine

open Sys2Proof

/-! ### A stop touches its own window only -/

section
variable {d e : Door}

theorem windowAt_setWindow_other (h : d ≠ e) (w : Window) (s : State) : windowAt (setWindow d w s) e = windowAt s e := by
  rw [windowAt_setWindow, if_neg h]

theorem windowAt_writeWindow (l : List WriteWaiter) (s : State) (e : Door) :
    windowAt (writeWindow d l s) e = windowAt s e := rfl

theorem toIdle_other (h : d ≠ e) (s : State) : windowAt (toIdle d s) e = windowAt s e :=
  windowAt_setWindow_other h _ s

theorem startMotor_other (h : d ≠ e) (m : Movement) (s : State) : windowAt (startMotor d m s) e = windowAt s e := by
  unfold startMotor
  dsimp only
  split
  · rw [toIdle_other h, windowAt_tellMove]
  · split
    · rw [toIdle_other h, windowAt_tellMove]
    · exact windowAt_setWindow_other h _ s

theorem comeToRest_other (h : d ≠ e) (s : State) : windowAt (comeToRest d s) e = windowAt s e := by
  unfold comeToRest
  dsimp only
  split
  · rw [toIdle_other h, windowAt_setWindow_other h]
  · split
    · rw [windowAt_setWindow_other h, windowAt_setWindow_other h]
    · rw [startMotor_other h, windowAt_setWindow_other h]

/-- What a stop tells of the movement it ends. -/
def stopTold (d : Door) (o : Option OpOutcome) (s : State) : State :=
  match o with
  | some o => tellMotion d o s
  | none => s

theorem windowAt_stopTold (o : Option OpOutcome) (s : State) (e : Door) : windowAt (stopTold d o s) e = windowAt s e := by
  cases o with
  | none => rfl
  | some o => exact windowAt_tellMotion d e o s

/-! ### A stop, by the window's phase (05, R91) -/

theorem stopMovement_running (o : Option OpOutcome) {s : State} (h : (windowAt s d).phase = .running) :
    stopMovement d o s = setWindow d (coast s.now (windowAt s d)) (stopTold d o s) := by
  unfold stopMovement
  simp only [h]
  rfl

theorem stopMovement_marking (o : Option OpOutcome) {s : State} (h : (windowAt s d).phase = .marking) :
    stopMovement d o s =
      comeToRest d (setWindow d { windowAt s d with motion := none, followOn := none } (stopTold d o s)) := by
  unfold stopMovement
  simp only [h]
  rfl

theorem stopMovement_still (o : Option OpOutcome) {s : State} (h : (windowAt s d).phase ≠ .running)
    (k : (windowAt s d).phase ≠ .marking) : stopMovement d o s = s := by
  unfold stopMovement
  dsimp only
  split
  · next e => exact absurd e h
  · next e => exact absurd e k
  · rfl
  · rfl

theorem stopMovement_other (h : d ≠ e) (o : Option OpOutcome) (s : State) :
    windowAt (stopMovement d o s) e = windowAt s e := by
  by_cases runs : (windowAt s d).phase = .running
  · rw [stopMovement_running o runs, windowAt_setWindow_other h, windowAt_stopTold]
  · by_cases marks : (windowAt s d).phase = .marking
    · rw [stopMovement_marking o marks, comeToRest_other h, windowAt_setWindow_other h, windowAt_stopTold]
    · rw [stopMovement_still o runs marks]

theorem removeFollowOn_other (h : d ≠ e) (o : Option OpOutcome) (s : State) :
    windowAt (removeFollowOn d o s) e = windowAt s e := by
  unfold removeFollowOn
  dsimp only
  split
  · rfl
  · split
    · rw [windowAt_tellMove, windowAt_setWindow_other h]
    · exact windowAt_setWindow_other h _ s

theorem removeFollowOn_window (o : Option OpOutcome) (s : State) :
    windowAt (removeFollowOn d o s) d = { windowAt s d with followOn := none } := by
  unfold removeFollowOn
  dsimp only
  split
  · next none => rw [← none]
  · split
    · rw [windowAt_tellMove, windowAt_setWindow_same]
    · exact windowAt_setWindow_same _ _ _

theorem toIdle_phase (s : State) : (windowAt (toIdle d s) d).phase = .idle := by
  simp [toIdle, windowAt_writeWindow]

/-- A stop leaves the window neither running nor marking. -/
theorem stopMovement_stops (o : Option OpOutcome) (s : State) : (windowAt (stopMovement d o s) d).phase ≠ .running ∧
    (windowAt (stopMovement d o s) d).phase ≠ .marking := by
  by_cases runs : (windowAt s d).phase = .running
  · rw [stopMovement_running o runs, windowAt_setWindow_same]
    exact ⟨nofun, nofun⟩
  · by_cases marks : (windowAt s d).phase = .marking
    · have none : (applyPending { windowAt s d with motion := none, followOn := none }).followOn = none := rfl
      rw [stopMovement_marking o marks, comeToRest]
      simp only [windowAt_setWindow_same, none, toIdle_phase]
      exact ⟨nofun, nofun⟩
    · rw [stopMovement_still o runs marks]
      exact ⟨runs, marks⟩

/-! ### The windows at a crash (05, R93) -/

theorem crashWindow_other (h : d ≠ e) (s : State) : windowAt (crashWindow s d) e = windowAt s e := by
  rw [crashWindow, removeFollowOn_other h, stopMovement_other h]

theorem crashWindow_rest (s : State) : (windowAt (crashWindow s d) d).phase ≠ .running ∧
    (windowAt (crashWindow s d) d).phase ≠ .marking ∧ (windowAt (crashWindow s d) d).followOn = none := by
  rw [crashWindow, removeFollowOn_window]
  exact ⟨(stopMovement_stops _ s).1, (stopMovement_stops _ s).2, rfl⟩

end

theorem crashWindow_work (s : State) (d : Door) : WindowWork s (crashWindow s d) :=
  (stopMovement_work d _ s).trans (removeFollowOn_work d _ _)

theorem WindowWork.foldl {α : Type} {f : State → α → State} (h : ∀ s x, WindowWork s (f s x)) (l : List α) (s : State) :
    WindowWork s (l.foldl f s) := by
  induction l generalizing s with
  | nil => exact .refl s
  | cons x l ih => exact (h s x).trans (ih _)

/-- A property of each window alone that the crash gives it, all windows have afterwards. -/
theorem foldl_crashWindow_rest (l : List Door) (s : State) (d : Door) (h : d ∈ l ∨
      ((windowAt s d).phase ≠ .running ∧ (windowAt s d).phase ≠ .marking ∧ (windowAt s d).followOn = none)) :
    (windowAt (l.foldl crashWindow s) d).phase ≠ .running ∧ (windowAt (l.foldl crashWindow s) d).phase ≠ .marking ∧
      (windowAt (l.foldl crashWindow s) d).followOn = none := by
  induction l generalizing s with
  | nil => exact h.resolve_left List.not_mem_nil
  | cons e l ih =>
    refine ih _ ?_
    by_cases same : e = d
    · right; rw [same]; exact crashWindow_rest s
    · rw [crashWindow_other same]
      exact h.imp_left fun m => (List.mem_cons.1 m).resolve_left fun k => same k.symm

theorem mem_allDoors (d : Door) : d ∈ allDoors := by cases d <;> decide

/-- The latches released and the windows stopped. -/
def crashStopped (s : State) : State := allDoors.foldl crashWindow (crashLatches s)

theorem crashStopped_work (s : State) : WindowWork (crashLatches s) (crashStopped s) := .foldl crashWindow_work _ _

theorem crashStopped_rest (s : State) (d : Door) : (windowAt (crashStopped s) d).phase ≠ .running ∧
    (windowAt (crashStopped s) d).phase ≠ .marking ∧ (windowAt (crashStopped s) d).followOn = none :=
  foldl_crashWindow_rest allDoors _ d (.inl (mem_allDoors d))

theorem crashLatches_tables (s : State) : (crashLatches s).store.scanDone = s.store.scanDone ∧
    (crashLatches s).link.settings = s.link.settings ∧ (crashLatches s).inputs = s.inputs ∧
    (crashLatches s).sup = s.sup ∧ (crashLatches s).now = s.now := by
  rw [crashLatches_work s]
  unfold holding
  split <;> exact ⟨rfl, rfl, rfl, rfl, rfl⟩

theorem crashStopped_scanDone (s : State) : (crashStopped s).store.scanDone = s.store.scanDone := by
  have h := foldl_crashWindow_same allDoors (crashLatches s)
  simp only [SameFields] at h
  rw [crashStopped]
  simp only [h]
  exact (crashLatches_tables s).1

theorem crashEvent_eq (s : State) : crashEvent s =
    if (crashStopped s).store.scanDone then (fire (systemFiring .crash (driverAperture (crashStopped s))) (crashStopped s)).1
    else { crashStopped s with latches := { (crashStopped s).latches with crashPending := true } } := by
  unfold crashEvent crashStopped
  generalize allDoors.foldl crashWindow (crashLatches s) = x
  rfl

/-- The crash line asserted while READY, before the event it gives. -/
def lineAsserted (s : State) : State :=
  wake .crash (setInputs { s.inputs with crashLine := { s.inputs.crashLine with ready := false } }
    (clockTo (s.inputs.crashLine.since + Times.crashTime) s))

theorem crashExpiry_asserted {s : State} (ready : s.inputs.crashLine.ready = true)
    (asserted : s.inputs.crashLine.asserted = true) : crashExpiry s = crashEvent (lineAsserted s) := by
  unfold crashExpiry
  dsimp only
  split
  · rfl
  · next e _ => rw [ready] at e; cases e
  · next e => rw [asserted] at e; cases e
  · next e _ => rw [ready] at e; cases e

theorem crashExpiry_deasserted {s : State} (awaits : s.inputs.crashLine.ready = false)
    (deasserted : s.inputs.crashLine.asserted = false) : crashExpiry s =
      setInputs { s.inputs with crashLine := { s.inputs.crashLine with ready := true } }
        (clockTo (s.inputs.crashLine.since + Times.crashTime) s) := by
  unfold crashExpiry
  dsimp only
  split
  · next e _ => rw [awaits] at e; cases e
  · rfl
  · next e _ => rw [awaits] at e; cases e
  · next e => rw [deasserted] at e; cases e

theorem crashExpiry_still {s : State} (h : s.inputs.crashLine.ready ≠ s.inputs.crashLine.asserted) :
    crashExpiry s = s := by
  unfold crashExpiry
  dsimp only
  split
  · next e k => exact absurd (e.trans k.symm) h
  · next e k => exact absurd (e.trans k.symm) h
  · rfl
  · rfl

theorem crashStopped_line (s : State) : (crashStopped (lineAsserted s)).latches = (crashLatches (lineAsserted s)).latches ∧
    (crashStopped (lineAsserted s)).inputs.crashLine.ready = false ∧
    (crashStopped (lineAsserted s)).sup.mode ≠ .parked ∧
    (crashStopped (lineAsserted s)).now = max s.now (s.inputs.crashLine.since + Times.crashTime) ∧
    raised .crash (crashStopped (lineAsserted s)) = true := by
  obtain ⟨_, _, inputs, sup, now⟩ := crashLatches_tables (lineAsserted s)
  have work := crashStopped_work (lineAsserted s)
  refine ⟨by rw [work], ?_, ?_, ?_, ?_⟩
  · rw [work]
    show (crashLatches (lineAsserted s)).inputs.crashLine.ready = false
    rw [inputs]
    simp [lineAsserted, setInputs]
  · rw [work]
    show (crashLatches (lineAsserted s)).sup.mode ≠ .parked
    rw [sup]
    exact wake_mode _ _
  · rw [work]
    show (crashLatches (lineAsserted s)).now = _
    rw [now]
    simp [lineAsserted, clockTo]
  · rw [work]
    exact crashLatches_raised _

theorem driverAperture_crashStopped (s : State) : driverAperture (crashStopped (lineAsserted s)) = driverAperture s := by
  have work := crashStopped_work (lineAsserted s)
  have settings : (crashStopped (lineAsserted s)).link.settings = s.link.settings := by
    rw [work]
    show (crashLatches (lineAsserted s)).link.settings = _
    rw [(crashLatches_tables _).2.1]
    simp [lineAsserted]
  rw [driverAperture, settings, driverAperture]

theorem crashEvent_scanned {s : State} (done : s.store.scanDone = true) : crashEvent (lineAsserted s) =
    (fire (systemFiring .crash (driverAperture s)) (crashStopped (lineAsserted s))).1 := by
  have scanned : (crashStopped (lineAsserted s)).store.scanDone = true := by
    rw [crashStopped_scanDone]
    simpa [lineAsserted] using done
  rw [crashEvent_eq, if_pos scanned, driverAperture_crashStopped]

theorem crashEvent_scanning {s : State} (scanning : s.store.scanDone = false) : crashEvent (lineAsserted s) =
    { crashStopped (lineAsserted s) with
      latches := { (crashStopped (lineAsserted s)).latches with crashPending := true } } := by
  have undone : (crashStopped (lineAsserted s)).store.scanDone = false := by
    rw [crashStopped_scanDone]
    simpa [lineAsserted] using scanning
  rw [crashEvent_eq, if_neg (by simp [undone])]

/-- The requester's parties are told the request was overridden. -/
theorem mem_crashTold_held {a : Aperture} {u : LatchUnit} {h : Held} (k : u.held = some h) {t : Trigger}
    (q : h.requester = .chain t) {n : Tag} (m : n ∈ h.tags) :
    { trigger := t, serial := n.serial, count := n.count, aperture := a, outcome := .overridden } ∈ crashTold a u := by
  unfold crashTold
  simp only [k, q]
  exact List.mem_append_left _ (mem_notices m a fun _ => .overridden)

theorem mem_crashTold_drive {a : Aperture} {u : LatchUnit} {d : Drive} (k : u.drive = some d)
    (ends : crashKeeps d = false) {t : Trigger} (q : d.requester = .chain t) {n : Tag} (m : n ∈ d.tags) :
    { trigger := t, serial := n.serial, count := n.count, aperture := a, outcome := .overridden } ∈ crashTold a u := by
  unfold crashTold
  simp only [k, ends, q, Bool.false_eq_true, if_false]
  exact List.mem_append_right _ (mem_notices m a fun _ => .overridden)

theorem standsOpen_iff {s : State} {a : Aperture} :
    standsOpen s a = true ↔ pairQualified s a = true ∧ (latchAt s a).sensed = .unlocked := by simp [standsOpen]

theorem crashKeeps_false {d : Drive} (h : d.requester ≠ .crash ∨ actuatorOf d.target = .child) :
    crashKeeps d = false := by
  obtain h | h := h <;> simp [crashKeeps, h]

/-- What the crash leaves of a drive at a latch that stands open, and at one that does not. -/
theorem crashedAt_ends {s : State} {a : Aperture} {d : Drive} (driven : (latchAt s a).drive = some d)
    (ends : crashKeeps d = false) :
    (standsOpen s a = true → (crashedAt s a).drive = none ∧
      (crashedAt s a).credit = (latchAt s a).credit - (s.now - d.start) / 1000) ∧
    (standsOpen s a = false → (crashedAt s a).drive = some (crashDriveAt s.now) ∧
      (crashedAt s a).credit = min 3000 ((latchAt s a).credit - (s.now - d.start) / 1000)) := by
  rw [crashedAt, crashed_ends driven ends]
  refine ⟨fun h => by rw [crashRest_open _ h]; exact ⟨rfl, rfl⟩, fun h => ?_⟩
  rw [crashRest_driven _ h]
  refine ⟨rfl, ?_⟩
  simp [creditOf, Times.creditMax]

theorem crashedAt_idle {s : State} {a : Aperture} (idle : (latchAt s a).drive = none) :
    (standsOpen s a = true → (crashedAt s a).drive = none ∧ (crashedAt s a).credit = (latchAt s a).credit) ∧
    (standsOpen s a = false → (crashedAt s a).drive = some (crashDriveAt s.now) ∧
      (crashedAt s a).credit = creditOf (latchAt s a) s.now) := by
  rw [crashedAt, crashed_idle idle]
  refine ⟨fun h => by rw [crashRest_open _ h]; exact ⟨idle, rfl⟩, fun h => ?_⟩
  rw [crashRest_driven _ h]
  exact ⟨rfl, rfl⟩

theorem childBusy_iff {u : LatchUnit} : childBusy u = true ↔
    (∃ h, u.held = some h ∧ actuatorOf h.target = .child) ∨ ∃ d, u.drive = some d ∧ actuatorOf d.target = .child := by
  unfold childBusy
  cases u.held <;> cases u.drive <;> simp

/-! ### A firing with the windows at rest -/

/-- A window that neither moves nor has a movement to follow. -/
def AtRest (w : Window) : Prop := w.phase ≠ .running ∧ w.phase ≠ .marking ∧ w.followOn = none

theorem retireWindow_rest (t : Trigger) {s : State} {d : Door} (h : AtRest (windowAt s d)) : retireWindow t s d = s := by
  obtain ⟨runs, marks, none⟩ := h
  unfold retireWindow
  simp [inProgress, runs, marks, none]

theorem foldl_retireWindow_rest (t : Trigger) (l : List Door) {s : State} (h : ∀ d, AtRest (windowAt s d)) :
    l.foldl (retireWindow t) s = s := by
  induction l with
  | nil => rfl
  | cons d l ih => rw [List.foldl_cons, retireWindow_rest t (h d), ih]

theorem retire_windows (t : Trigger) (o : RunOutcome) {s : State} (h : ∀ d, AtRest (windowAt s d)) :
    (retire t o s).windows = s.windows := by
  unfold retire
  split
  · rfl
  · rw [foldl_retireWindow_rest t _ h]
    rfl

theorem foldl_windows {α : Type} {f : State → α → State}
    (h : ∀ s x, (∀ d, AtRest (windowAt s d)) → (f s x).windows = s.windows) (l : List α) {s : State}
    (k : ∀ d, AtRest (windowAt s d)) : (l.foldl f s).windows = s.windows := by
  induction l generalizing s with
  | nil => rfl
  | cons x l ih =>
    have same := h s x k
    have rest : ∀ d, AtRest (windowAt (f s x) d) := by
      intro d
      rw [windowAt, same]
      exact k d
    rw [List.foldl_cons, ih rest, same]

theorem cancelTrigger_windows (s : State) (t : Trigger) (h : ∀ d, AtRest (windowAt s d)) :
    (cancelTrigger s t).windows = s.windows := retire_windows t .cancelled h

/-- A run that has not begun a step is made ACTIVE without a request. -/
theorem preempt_windows {t : Trigger} {s : State} {r : Run} (h : runAt s t = some r) (k : r.step = none) :
    (preempt t s).windows = s.windows := by
  have began : ∀ u, (activate t (suspend u s)).windows = s.windows := by
    intro u
    have suspended : (suspend u s).windows = s.windows := by
      unfold suspend
      split <;> rfl
    have step : ∀ x, runAt (suspend u s) t = some x → x.step = none := by
      intro x e
      unfold suspend at e
      split at e
      · rw [h] at e; cases e; exact k
      · next y own =>
        dsimp only at e
        rw [runAt_setRun] at e
        split at e
        · next same =>
          subst same
          cases e
          rw [h] at own
          cases own
          exact k
        · rw [h] at e; cases e; exact k
    unfold activate
    split
    · exact suspended
    · next x e =>
      simp only [step x e]
      exact suspended
  unfold preempt
  split
  · split
    · split
      · exact began _
      · rfl
    · rfl
  · rfl

/-- The part with a fresh run READY, before the cancel set is retired. -/
def fresh (f : Firing) (i : Fin 64) (s : State) : State :=
  let x := setContinue f.trigger none (setRun f.trigger (some (newRun s f i)) s)
  { x with engine := { x.engine with nextSerial := x.engine.nextSerial + 1 } }

/-- The triggers that a firing cancels. -/
def cancelled (t : Trigger) (s : State) : List Trigger :=
  allTriggers.filter fun u => u ≠ t && (triggerAt s t).cancelSet.getLsbD (triggerIndex u).val

theorem takeFiring_eq (f : Firing) (i : Fin 64) (s : State) : takeFiring f i s =
    preempt f.trigger (stopRelock ((cancelled f.trigger s).foldl cancelTrigger (fresh f i s))) := rfl

theorem not_mem_cancelled (t : Trigger) (s : State) : t ∉ cancelled t s := fun m => by
  simpa using (List.mem_filter.1 m).2

/-- The run that a firing makes stands until the engine chooses. -/
theorem runAt_fresh_cancelled (f : Firing) (i : Fin 64) (s : State) :
    runAt ((cancelled f.trigger s).foldl cancelTrigger (fresh f i s)) f.trigger = some (newRun s f i) := by
  rw [runAt_cancelAll, if_neg (not_mem_cancelled _ _)]
  exact runAt_setRun_same _ _ _

theorem takeFiring_windows (f : Firing) (i : Fin 64) {s : State} (h : ∀ d, AtRest (windowAt s d)) :
    (takeFiring f i s).windows = s.windows := by
  rw [takeFiring_eq]
  have stands : runAt (stopRelock ((cancelled f.trigger s).foldl cancelTrigger (fresh f i s))) f.trigger =
      some (newRun s f i) := runAt_fresh_cancelled f i s
  rw [preempt_windows stands rfl]
  exact foldl_windows cancelTrigger_windows _ (s := fresh f i s) h

theorem crashSweep_windows {s : State} (h : ∀ d, AtRest (windowAt s d)) : (crashSweep s).windows = s.windows := by
  have swept : ∀ l : List Trigger, (l.foldl (fun s u => setRefire u none (cancelTrigger s u)) s).windows = s.windows :=
    fun l => foldl_windows (f := fun s u => setRefire u none (cancelTrigger s u))
      (fun s u k => cancelTrigger_windows s u k) l h
  dsimp only [crashSweep, stopRelock]
  rw [setContinue_windows, swept]

theorem decideFiring_windows (f : Firing) {s : State} (h : ∀ d, AtRest (windowAt s d)) :
    (decideFiring f s).1.windows = s.windows := by
  unfold decideFiring
  dsimp only
  split
  · rfl
  · split
    · exact takeFiring_windows f _ h
    · split
      · rfl
      · split <;> rfl
      · split <;> rfl

theorem fire_windows (f : Firing) {s : State} (h : ∀ d, AtRest (windowAt s d)) : (fire f s).1.windows = s.windows := by
  unfold fire
  split
  · have swept := crashSweep_windows h
    rw [decideFiring_windows f (s := crashSweep s) fun d => by rw [windowAt, swept]; exact h d, swept]
  · exact decideFiring_windows f h

/-- A flag raised stays raised through what only raises flags. -/
theorem Kept.raised {s t : State} (h : Kept s t) {f : AttentionFlag} (k : raised f s = true) : raised f t = true := by
  rw [raised_iff_getLsbD] at k ⊢
  have flags := congrArg (fun x : BitVec 16 => x.getLsbD (flagBit f)) h.flags
  simp only [BitVec.getLsbD_and, k, Bool.true_and] at flags
  exact flags

/-- Settles O23. -/
theorem crashLineGivesACrashEvent : Obligations.CrashLineGivesACrashEvent := by
  refine ⟨fun s runs ready asserted => ?event, fun s => ?latches, fun s runs ready asserted => ?line, fun s runs => ?still⟩
  case event =>
    have meaning : exec (.qualificationTimeExpiry .crashLine) s = .next (finishEvent (crashEvent (lineAsserted s))) := by
      rw [exec_qualify _ runs, qualify, crashExpiry_asserted ready asserted]
    obtain ⟨latches, line, mode, now, flag⟩ := crashStopped_line s
    exact ⟨fun done => by rw [meaning, crashEvent_scanned done]; rfl,
      fun scanning => by rw [meaning, crashEvent_scanning scanning]; rfl, latches, line, mode, now, flag,
      crashStopped_rest _⟩
  case latches =>
    have store := crashLatches_store s
    refine ⟨crashLatches_crashHold s, crashLatches_raised s, fun done => ⟨fun clear => ?_, fun held => ?_⟩,
      fun scanning => ⟨fun clear => ?_, fun pending => ?_⟩, fun a => ?_, fun r => ⟨fun busy => ?_, fun idle => ?_⟩⟩
    · rw [store, if_pos (by simp [freshCrash, done, clear])]
    · rw [store, if_neg (by simp [freshCrash, done, held])]
    · rw [store, if_pos (by simp [freshCrash, scanning, clear])]
    · rw [store, if_neg (by simp [freshCrash, scanning, pending])]
    · dsimp only
      rw [latchAt_crashLatches]
      obtain ⟨held, target, fault, sensed⟩ := crashed_fields (now := s.now) (isOpen := standsOpen s a) (u := latchAt s a)
      refine ⟨held, target, fault, sensed, fun h k t q n m => mem_mail_crashLatches (mem_crashTold_held k q m),
        fun idle => ⟨fun opens => (crashedAt_idle idle).1 (standsOpen_iff.2 opens), fun shut => ?_⟩,
        fun d driven crash other => ?_, fun d driven other => ?_⟩
      · exact (crashedAt_idle idle).2 (Bool.eq_false_iff.2 fun h => shut (standsOpen_iff.1 h))
      · have keeps : crashKeeps d = true := by simp [crashKeeps, crash, other]
        rw [crashedAt, crashed_keeps driven keeps]
        exact ⟨driven, rfl⟩
      · have ends := crashKeeps_false other
        exact ⟨fun t q n m => mem_mail_crashLatches (mem_crashTold_drive driven ends q m),
          fun opens => (crashedAt_ends driven ends).1 (standsOpen_iff.2 opens),
          fun shut => (crashedAt_ends driven ends).2 (Bool.eq_false_iff.2 fun h => shut (standsOpen_iff.1 h))⟩
    · exact (childAt_crashLatches s r).trans (if_pos (childBusy_iff.2 busy))
    · exact (childAt_crashLatches s r).trans (if_neg fun h => idle (childBusy_iff.1 h))
  case line =>
    have meaning : exec (.qualificationTimeExpiry .crashLine) s = .next (finishEvent (crashEvent (lineAsserted s))) := by
      rw [exec_qualify _ runs, qualify, crashExpiry_asserted ready asserted]
    refine ⟨_, meaning, ?_⟩
    obtain ⟨latches, line, mode, now, flag⟩ := crashStopped_line s
    have hold : (crashStopped (lineAsserted s)).latches.crashHold = true := by
      rw [latches]
      exact crashLatches_crashHold _
    cases scan : s.store.scanDone with
    | true =>
      have kept := fire_kept (systemFiring .crash (driverAperture s)) (crashStopped (lineAsserted s))
      have rest := crashStopped_rest (lineAsserted s)
      rw [crashEvent_scanned scan]
      refine ⟨by rw [kept.inputs]; exact line, by rw [kept.sup]; exact mode, kept.crashHold.trans hold,
        kept.now.trans now, fun d => ?_, kept.raised flag, nofun⟩
      rw [windowAt, fire_windows _ rest]
      exact (rest d).1
    | false =>
      rw [crashEvent_scanning scan]
      exact ⟨line, mode, hold, now, fun d => (crashStopped_rest (lineAsserted s) d).1, flag, fun _ => rfl⟩
  case still =>
    refine ⟨fun awaits deasserted => ?_, fun awaits asserted => ?_, fun ready deasserted => ?_⟩
    · rw [exec_qualify _ runs, qualify, crashExpiry_deasserted awaits deasserted]; rfl
    · rw [exec_qualify _ runs, qualify, crashExpiry_still (by simp [awaits, asserted])]
    · rw [exec_qualify _ runs, qualify, crashExpiry_still (by simp [ready, deasserted])]

end Sys2Proof.Machine

/-! The crash hold (04, R80): what each operation of the Latch Units, the Window Units and the Chain Engine does to the
invariant that nothing is driven toward LOCKED and no window closing. -/

namespace Sys2Proof.Machine

open Sys2Proof

-- Many short proofs of one form: elaborated in turn, they do not wait for each other in a thread each.
set_option Elab.async false

/-! ### What the invariant speaks of -/

/-- A Latch Unit's part of the invariant, under a given value of the hold. -/
def latchSafe (hold : Bool) (u : LatchUnit) : Prop := crashUnlocks u ∧ (hold = true → onlyUnlocks u)

/-- A window's part of the invariant, under a given value of the hold. -/
def windowSafe (hold : Bool) (w : Window) : Prop := reversalsOpen w ∧ (hold = true → notClosing w)

theorem crashInvariant_iff (s : State) : crashInvariant s ↔
    (s.store.scanDone = false → s.latches.crashHold = true) ∧
      (∀ a, latchSafe s.latches.crashHold (latchAt s a)) ∧ ∀ d, windowSafe s.latches.crashHold (windowAt s d) := by
  constructor
  · rintro ⟨scan, unlocks, opens, held⟩
    exact ⟨scan, fun a => ⟨unlocks a, fun h => (held h).1 a⟩, fun d => ⟨opens d, fun h => (held h).2 d⟩⟩
  · rintro ⟨scan, units, windows⟩
    exact ⟨scan, fun a => (units a).1, fun d => (windows d).1,
      fun h => ⟨fun a => (units a).2 h, fun d => (windows d).2 h⟩⟩

section
variable {s t : State} (h : crashInvariant s)
include h

theorem crashInvariant.latch (a : Aperture) : latchSafe s.latches.crashHold (latchAt s a) :=
  ((crashInvariant_iff s).1 h).2.1 a

theorem crashInvariant.window (d : Door) : windowSafe s.latches.crashHold (windowAt s d) :=
  ((crashInvariant_iff s).1 h).2.2 d

/-- The invariant speaks of the latches, the windows, the hold and the scan alone. -/
theorem crashInvariant.of_units (units : t.latches.unit = s.latches.unit := by rfl) (windows : t.windows = s.windows := by rfl)
    (hold : t.latches.crashHold = s.latches.crashHold := by rfl)
    (scan : t.store.scanDone = s.store.scanDone := by rfl) : crashInvariant t := by
  simpa only [crashInvariant, latchAt, windowAt, units, windows, hold, scan] using h

theorem crashInvariant.setLatch {a : Aperture} {u : LatchUnit} (k : latchSafe s.latches.crashHold u) :
    crashInvariant (setLatch a u s) := by
  obtain ⟨scan, units, windows⟩ := (crashInvariant_iff s).1 h
  refine (crashInvariant_iff _).2 ⟨scan, fun b => ?_, windows⟩
  rw [latchAt_setLatch]
  split
  · exact k
  · exact units b

theorem crashInvariant.setWindow {d : Door} {w : Window} (k : windowSafe s.latches.crashHold w) :
    crashInvariant (setWindow d w s) := by
  obtain ⟨scan, units, windows⟩ := (crashInvariant_iff s).1 h
  refine (crashInvariant_iff _).2 ⟨scan, units, fun b => ?_⟩
  rw [windowAt_setWindow]
  split
  · exact k
  · exact windows b

theorem crashInvariant.raise (f : AttentionFlag) : crashInvariant (raise f s) := h.of_units

theorem crashInvariant.offer (id : RecordId) (c : Content) (w : List WriteWaiter) :
    crashInvariant (offer id c w s) := h.of_units

theorem crashInvariant.setChild (r : Rear) (c : ChildLock) : crashInvariant (setChild r c s) :=
  h.of_units

theorem crashInvariant.setRun (u : Trigger) (r : Option Run) : crashInvariant (setRun u r s) :=
  h.of_units

theorem crashInvariant.setContinue (u : Trigger) (c : Option ContinuePoint) : crashInvariant (setContinue u c s) :=
  h.of_units

theorem crashInvariant.setRefire (u : Trigger) (c : Option Carried) : crashInvariant (setRefire u c s) :=
  h.of_units

theorem crashInvariant.clockTo (n : Nat) : crashInvariant (clockTo n s) := h.of_units

theorem crashInvariant.stopRelock : crashInvariant (stopRelock s) := h.of_units

theorem crashInvariant.tell (q : Requester) (g : List Tag) (a : Aperture) (o : Tag → OpOutcome) :
    crashInvariant (tell q g a o s) := by
  unfold Machine.tell
  split
  · exact h.of_units
  · exact h

theorem crashInvariant.requestSearch (z : Zone) (p : Purpose) (w : List SearchWaiter) :
    crashInvariant (requestSearch z p w s) := by
  unfold Machine.requestSearch
  dsimp only
  split
  · split
    · exact h.of_units
    · exact h.of_units
  · exact h.of_units

end

theorem crashInvariant_freeOfLink : FreeOfLink crashInvariant := fun _ _ _ _ h => h.of_units

theorem crashInvariant.foldl {α : Type} {f : State → α → State} (h : ∀ s x, crashInvariant s → crashInvariant (f s x))
    (l : List α) {s : State} (k : crashInvariant s) : crashInvariant (l.foldl f s) := by
  induction l generalizing s with
  | nil => exact k
  | cons x l ih => exact ih (h s x k)

/-! ### Latch Units -/

section
variable {hold : Bool} {u : LatchUnit} (h : latchSafe hold u)
include h

/-- What a Latch Unit drives and holds is all the invariant asks of it. -/
theorem latchSafe.of_channel {v : LatchUnit} (drive : v.drive = u.drive := by rfl)
    (held : v.held = u.held := by rfl) : latchSafe hold v := by
  simpa only [latchSafe, crashUnlocks, onlyUnlocks, drive, held] using h

theorem latchSafe.setDrive {v : LatchUnit} {d : Drive} (crash : d.requester = .crash → d.target = .unlocked)
    (only : hold = true → d.target = .unlocked) (drive : v.drive = some d := by rfl)
    (held : v.held = u.held := by rfl) : latchSafe hold v := by
  refine ⟨⟨fun x e q => ?_, fun x e => h.1.2 x (held ▸ e)⟩, fun k x e => ?_⟩
  · rw [drive] at e; cases e; exact crash q
  · rw [drive] at e; cases e; exact only k

theorem latchSafe.noDrive {v : LatchUnit} (drive : v.drive = none := by rfl) (held : v.held = u.held := by rfl) : latchSafe hold v := by
  refine ⟨⟨fun x e => ?_, fun x e => h.1.2 x (held ▸ e)⟩, fun _ x e => ?_⟩ <;> (rw [drive] at e; cases e)

theorem latchSafe.noHeld {v : LatchUnit} (drive : v.drive = u.drive := by rfl) (held : v.held = none := by rfl) : latchSafe hold v := by
  refine ⟨⟨fun x e => h.1.1 x (drive ▸ e), fun x e => ?_⟩, fun k x e => h.2 k x (drive ▸ e)⟩
  rw [held] at e; cases e

theorem latchSafe.setHeld {v : LatchUnit} {x : Held} (crash : x.requester = .crash → x.target = .unlocked)
    (drive : v.drive = u.drive := by rfl) (held : v.held = some x := by rfl) : latchSafe hold v := by
  refine ⟨⟨fun d e => h.1.1 d (drive ▸ e), fun y e q => ?_⟩, fun k d e => h.2 k d (drive ▸ e)⟩
  rw [held] at e; cases e; exact crash q

end

section
variable {s : State} (h : crashInvariant s) (a : Aperture)
include h

/-- A latch record changed beside its drive and its held request. -/
theorem crashInvariant.relatch {u : LatchUnit} (drive : u.drive = (latchAt s a).drive := by rfl)
    (held : u.held = (latchAt s a).held := by rfl) : crashInvariant (Machine.setLatch a u s) :=
  h.setLatch ((h.latch a).of_channel drive held)

/-- A drive that begins goes toward UNLOCKED under the hold, and for the crash (04, R79, R80). -/
theorem crashInvariant.beginDrive {x : HeldTarget} {q : Requester} (g : List Tag) (crash : q = .crash → x = .unlocked)
    (only : s.latches.crashHold = true → x = .unlocked) : crashInvariant (beginDrive a x q g s) :=
  h.setLatch ((h.latch a).setDrive crash only)

theorem crashInvariant.endDrive : crashInvariant (endDrive a s) := by
  unfold Machine.endDrive
  dsimp only
  split
  · exact h
  · exact h.setLatch ((h.latch a).noDrive)

theorem crashInvariant.overrideDrive : crashInvariant (overrideDrive a s) := by
  unfold Machine.overrideDrive
  split
  · exact h
  · exact (h.endDrive a).tell _ _ _ _

theorem crashInvariant.finishDrive (o : OpOutcome) : crashInvariant (finishDrive a o s) := by
  unfold Machine.finishDrive
  split
  · exact h
  · exact (h.endDrive a).tell _ _ _ _

theorem crashInvariant.dropHeld : crashInvariant (dropHeld a s) := by
  unfold Machine.dropHeld
  split
  · exact h
  · exact (h.setLatch ((h.latch a).noHeld)).tell _ _ _ _

theorem crashInvariant.resetTarget (x : Actuator) : crashInvariant (resetTarget a x s) := by
  unfold Machine.resetTarget
  split
  · exact crashInvariant.relatch (s := { s with free := s.free + 1 }) (h.of_units) a
  · split
    · exact h.setChild _ _
    · exact h
  · exact h

theorem crashInvariant.takeTarget (x : HeldTarget) : crashInvariant (takeTarget a x s) := by
  unfold Machine.takeTarget
  split
  · exact h.relatch a
  · split
    · exact h.setChild _ _
    · exact h
  · exact h

theorem crashInvariant.deny (q : Requester) (g : List Tag) (r : Reason) : crashInvariant (deny a q g r s) := by
  unfold Machine.deny
  refine crashInvariant.tell ?_ _ _ _ _
  split
  · exact h.raise _
  · exact h

theorem crashInvariant.hold {x : HeldTarget} {q : Requester} (g : List Tag) (crash : q = .crash → x = .unlocked) :
    crashInvariant (hold a x q g s) := by
  have placed : ∀ y : State, crashInvariant y → crashInvariant
      (Machine.setLatch a { latchAt y a with held := some { target := x, requester := q, tags := g } } y) :=
    fun y k => k.setLatch ((k.latch a).setHeld crash)
  have cleared : crashInvariant (match (latchAt s a).held with
      | none => s
      | some x => Machine.resetTarget a (actuatorOf x.target) (Machine.dropHeld a s)) := by
    split
    · exact h
    · exact (h.dropHeld a).resetTarget a _
  unfold Machine.hold
  dsimp only
  split
  · exact (placed _ cleared).raise _
  · exact placed _ cleared

theorem crashInvariant.seekDrive {x : HeldTarget} {q : Requester} (g : List Tag) (crash : q = .crash → x = .unlocked)
    (only : s.latches.crashHold = true → x = .unlocked) : crashInvariant (seekDrive a x q g s).1 := by
  unfold Machine.seekDrive
  dsimp only
  split
  · exact h.beginDrive a g crash only
  · exact h.hold a g crash

theorem crashInvariant.replaceEarlier (x : HeldTarget) : crashInvariant (replaceEarlier a x s) := by
  have overridden : crashInvariant (match (latchAt s a).drive with
      | some d => if actuatorOf d.target = actuatorOf x then Machine.overrideDrive a s else s
      | none => s) := by
    split
    · split
      · exact h.overrideDrive a
      · exact h
    · exact h
  unfold Machine.replaceEarlier
  dsimp only
  split
  · split
    · exact overridden.dropHeld a
    · exact overridden
  · exact overridden

theorem crashInvariant.takeRequest {x : HeldTarget} {q : Requester} (g : List Tag) (crash : q = .crash → x = .unlocked)
    (only : s.latches.crashHold = true → x = .unlocked) : crashInvariant (takeRequest a x q g s).1 := by
  have fresh : crashInvariant
      (let s := Machine.takeTarget a x (Machine.replaceEarlier a x s)
       if sensedMeets s a x then (Machine.tell q g a metOutcome s, Answer.done)
       else Machine.seekDrive a x q g s).1 := by
    have k := (h.replaceEarlier a x).takeTarget a x
    have same := (((replaceEarlier_moves a x s).trans (takeTarget_moves a x _)).kept).crashHold
    dsimp only
    split
    · exact k.tell _ _ _ _
    · exact k.seekDrive a g crash (by rw [same]; exact only)
  have joinsHeld : ∀ y, (latchAt s a).held = some y → (decide (y.target = x) && decide (y.requester = q)) = true →
      crashInvariant (Machine.takeTarget a x
        (Machine.setLatch a { latchAt s a with held := some { y with tags := y.tags ++ g } } s)) := fun y e _ =>
    (h.setLatch ((h.latch a).setHeld (x := { y with tags := y.tags ++ g }) ((h.latch a).1.2 y e))).takeTarget a x
  unfold Machine.takeRequest
  dsimp only
  split
  · next d e =>
    split
    · exact (h.setLatch ((h.latch a).setDrive (d := { d with tags := d.tags ++ g }) ((h.latch a).1.1 d e)
        fun k => (h.latch a).2 k d e)).takeTarget a x
    · split
      · next takesOver =>
        exact (h.setLatch ((h.latch a).setDrive (d := { d with requester := q, tags := g }) (fun _ => takesOver.2.1)
          fun _ => takesOver.2.1)).takeTarget a x
      · split
        · next y f =>
          split
          · next j => exact joinsHeld y f j
          · exact fresh
        · exact fresh
  · split
    · next y f =>
      split
      · next j => exact joinsHeld y f j
      · exact fresh
    · exact fresh

end

theorem crashInvariant.startPulse {s : State} (h : crashInvariant s) (q : Requester) (g : List Tag) :
    crashInvariant (startPulse q g s) := by
  have dropped : crashInvariant (match (latchAt s .tg).held with
      | some x => if x.target = HeldTarget.release then Machine.dropHeld .tg s else s
      | none => s) := by
    split
    · split
      · exact h.dropHeld _
      · exact h
    · exact h
  exact dropped.of_units

theorem crashInvariant.requestRelease {s : State} (h : crashInvariant s) {q : Requester} (g : List Tag)
    (crash : q ≠ .crash) : crashInvariant (requestRelease q g s).1 := by
  unfold Machine.requestRelease
  split
  · exact h.deny _ _ _ _
  · exact h.tell _ _ _ _
  · split
    · exact h.hold _ g fun e => absurd e crash
    · exact h.startPulse _ _

/-- Under the crash hold a request passes its tests only toward UNLOCKED, or for a release (04, R61, R80). -/
theorem unlocked_of_denial_none {s : State} {a : Aperture} {x : HeldTarget} (passes : denial s a x = none)
    (held : s.latches.crashHold = true) : x = .unlocked ∨ x = .release := by
  cases x with
  | unlocked => exact .inl rfl
  | release => exact .inr rfl
  | locked => simp [denial, held] at passes
  | deadlocked => simp [denial, held] at passes
  | on =>
    simp only [denial, held, if_true] at passes
    split at passes <;> cases passes
  | off =>
    simp only [denial, held, if_true] at passes
    split at passes <;> cases passes

theorem crashInvariant.requestLatch {s : State} (h : crashInvariant s) (a : Aperture) (x : HeldTarget)
    {q : Requester} (g : List Tag) (crash : q ≠ .crash) : crashInvariant (requestLatch a x q g s).1 := by
  unfold Machine.requestLatch
  split
  · exact h.deny _ _ _ _
  · next passes =>
    split
    · exact h.requestRelease g crash
    · next notRelease =>
      refine h.takeRequest a g (fun e => absurd e crash) fun held => ?_
      obtain rfl | e := unlocked_of_denial_none passes held
      · rfl
      · exact absurd e notRelease

theorem crashInvariant.latchFault {s : State} (h : crashInvariant s) (a : Aperture) (f : LatchFault) :
    crashInvariant (latchFault a f s) := (h.relatch a).raise _

theorem crashInvariant.latchSensed {s : State} (h : crashInvariant s) (a : Aperture) (q : LatchState) (first : Bool) :
    crashInvariant (latchSensed a q first s) := by
  have k : crashInvariant (Machine.setLatch a { latchAt s a with sensed := q } s) := h.relatch a
  unfold Machine.latchSensed
  dsimp only
  split
  · split
    · exact (k.latchFault a _).finishDrive a _
    · split
      · exact k.finishDrive a _
      · exact k
  · split
    · split
      · exact (k.relatch a).latchFault a _
      · exact k.latchFault a _
    · split
      · exact k
      · exact k.relatch a

theorem crashInvariant.childSensed {s : State} (h : crashInvariant s) (r : Rear) (q first : Bool) :
    crashInvariant (childSensed r q first s) := by
  have k := h.setChild r { childAt s r with sensed := q }
  unfold Machine.childSensed
  dsimp only
  split
  · split
    · split
      · exact k.finishDrive _ _
      · exact k
    · split
      · exact k
      · exact k.setChild _ _
  · split
    · exact k
    · exact k.setChild _ _

theorem crashInvariant.driveLimit {s : State} (h : crashInvariant s) (a : Aperture) :
    crashInvariant (driveLimit a s) := by
  unfold Machine.driveLimit
  split
  · exact h
  · dsimp only
    split
    · split
      · exact (((h.clockTo _).finishDrive a _).setChild _ _).raise _
      · exact (h.clockTo _).finishDrive a _
    · exact ((h.clockTo _).finishDrive a _).latchFault a _

/-- A held request at its start is tested again, so under the hold it drives toward UNLOCKED alone (04, R63, R80). -/
theorem crashInvariant.startHeld {s : State} (h : crashInvariant s) (a : Aperture) (x : Held)
    (crash : x.requester = .crash → x.target = .unlocked) : crashInvariant (startHeld a x s) := by
  have k : crashInvariant (Machine.setLatch a { latchAt s a with held := none } s) :=
    h.setLatch ((h.latch a).noHeld)
  unfold Machine.startHeld
  dsimp only
  split
  · next release =>
    exact k.requestRelease _ fun e => by rw [crash e] at release; cases release
  · next notRelease =>
    split
    · exact k.deny _ _ _ _
    · next passes =>
      have starts : ∀ z : State, crashInvariant z → z.latches.crashHold = s.latches.crashHold → ∀ y : HeldTarget,
          (x.target = .unlocked → y = .unlocked) → crashInvariant
            (if sensedMeets z a y then Machine.tell x.requester x.tags a metOutcome z
             else Machine.beginDrive a y x.requester x.tags z) := by
        intro z kz same y toUnlocked
        split
        · exact kz.tell _ _ _ _
        · refine kz.beginDrive a _ (fun e => toUnlocked (crash e)) fun held => toUnlocked ?_
          exact (unlocked_of_denial_none passes (same ▸ held)).resolve_right notRelease
      refine starts _ ?_ ?_ _ fun e => by rw [e]; rfl
      · split
        · exact k
        · exact k.relatch a
      · split <;> rfl

theorem crashInvariant.heldStart {s : State} (h : crashInvariant s) (a : Aperture) :
    crashInvariant (heldStart a s) := by
  unfold Machine.heldStart
  split
  · exact h
  · next x e =>
    have crash := (h.latch a).1.2 x e
    split
    · exact h
    · split
      · exact h.startHeld a x crash
      · split
        · exact h
        · exact (h.clockTo _).startHeld a x crash

end Sys2Proof.Machine

/-! The crash hold at the windows (04, R80; 05, R97; 06, R115). -/

namespace Sys2Proof.Machine

open Sys2Proof

-- Many short proofs of one form: elaborated in turn, they do not wait for each other in a thread each.
set_option Elab.async false

/-! ### One window -/

/-- Phase, movement and follow-on are all the invariant asks of a window. -/
theorem windowSafe.of_moves {hold : Bool} {v w : Window} (h : windowSafe hold w)
    (motion : v.motion.map Motion.move = w.motion.map Motion.move := by rfl) (phase : v.phase = w.phase := by rfl)
    (followOn : v.followOn = w.followOn := by rfl) : windowSafe hold v := by
  have back : ∀ m, v.motion = some m → ∃ x, w.motion = some x ∧ x.move = m.move := by
    intro m e
    rw [e] at motion
    exact Option.map_eq_some_iff.1 motion.symm
  refine ⟨⟨fun m e => ?_, fun m e => h.1.2 m (followOn ▸ e)⟩, fun k runs m e => ?_⟩
  · obtain ⟨x, f, g⟩ := back m e
    exact g ▸ h.1.1 x f
  · obtain ⟨x, f, g⟩ := back m e
    exact g ▸ h.2 k (phase ▸ runs) x f

/-- A window with no movement is safe under the hold. -/
theorem windowSafe.empty {hold : Bool} {v : Window} (motion : v.motion = none := by rfl)
    (followOn : v.followOn = none := by rfl) : windowSafe hold v := by
  refine ⟨⟨fun m e => ?_, fun m e => ?_⟩, fun _ _ m e => ?_⟩
  · rw [motion] at e; cases e
  · rw [followOn] at e; cases e
  · rw [motion] at e; cases e

/-- A window whose motor rests is safe under the hold. -/
theorem windowSafe.resting {hold : Bool} {v : Window} (motion : ∀ m, v.motion = some m → reversalOpens m.move)
    (followOn : ∀ m, v.followOn = some m → reversalOpens m) (phase : v.phase ≠ .running := by exact nofun) :
    windowSafe hold v := ⟨⟨motion, followOn⟩, fun _ runs => absurd runs phase⟩

/-- A running window whose movement opens is safe under the hold. -/
theorem windowSafe.moving {hold : Bool} {v : Window} (motion : ∀ m, v.motion = some m → reversalOpens m.move)
    (followOn : ∀ m, v.followOn = some m → reversalOpens m)
    (opens : hold = true → ∀ m, v.motion = some m → m.move.dir = .opening) : windowSafe hold v :=
  ⟨⟨motion, followOn⟩, fun k _ => opens k⟩

theorem windowSafe.coast {hold : Bool} {w : Window} (h : windowSafe hold w) (now : Nat) :
    windowSafe hold (coast now w) := by
  refine .resting (fun m e => ?_) h.1.2
  obtain ⟨x, f, rfl⟩ := Option.map_eq_some_iff.1 e
  exact h.1.1 x f

theorem windowSafe.applyPending {hold : Bool} {w : Window} (h : windowSafe hold w) :
    windowSafe hold (applyPending w) := h.of_moves

theorem windowSafe.setConsumed {hold : Bool} {w : Window} (h : windowSafe hold w) (own x : Bool) :
    windowSafe hold (setConsumed own x w) := by
  unfold Machine.setConsumed
  split
  · exact h.of_moves
  · exact h.of_moves

theorem reversalOpens_of_ne {m : Movement} (h : m.mode ≠ .reversal) : reversalOpens m := fun e => absurd e h

theorem reversalOpens.fixReversal {m : Movement} (h : reversalOpens m) (d : Door) (w : Window) (now : Nat) :
    reversalOpens (fixReversal d w now m) := by
  unfold Machine.fixReversal
  split
  · split
    · exact h
    · exact h
  · exact h

/-- Fixing its direction leaves a REVERSAL as it is, and no other movement becomes one (06, R115). -/
theorem reversalOpens.fixDirection {m : Movement} (h : reversalOpens m) (w : Window) :
    reversalOpens (fixDirection w m) := by
  unfold Machine.fixDirection
  split
  · exact h
  · next loose =>
    have mode : m.mode ≠ .reversal := fun e => loose (h e).2
    split
    · exact reversalOpens_of_ne mode
    · exact reversalOpens_of_ne mode

/-- Under the crash hold a movement that passes its tests opens (05, R89; 06, R115). -/
theorem opening_of_moveDenial_none {w : Window} {m : Movement} (h : reversalOpens m)
    (passes : moveDenial true w m.dir m.mode = none) : m.dir = .opening := by
  unfold moveDenial at passes
  split at passes
  · next reverses => exact (h reverses).1
  · split at passes
    · cases passes
    · next open_ =>
      cases e : m.dir with
      | opening => rfl
      | closing => simp [e] at open_

/-! ### Movements -/

section
variable {s : State} (h : crashInvariant s) (d : Door)
include h

/-- A window record changed beside its phase, its movement and its follow-on. -/
theorem crashInvariant.rewindow {w : Window}
    (motion : w.motion.map Motion.move = (windowAt s d).motion.map Motion.move := by rfl)
    (phase : w.phase = (windowAt s d).phase := by rfl) (followOn : w.followOn = (windowAt s d).followOn := by rfl) :
    crashInvariant (Machine.setWindow d w s) := h.setWindow ((h.window d).of_moves motion phase followOn)

theorem crashInvariant.tellMove (m : Movement) (o : OpOutcome) : crashInvariant (tellMove d m o s) := h.tell _ _ _ _

theorem crashInvariant.tellMotion (o : OpOutcome) : crashInvariant (tellMotion d o s) := by
  unfold Machine.tellMotion
  split
  · exact h.tellMove d _ _
  · exact h

theorem crashInvariant.writeWindow (w : List WriteWaiter) : crashInvariant (writeWindow d w s) := h.offer _ _ _

theorem crashInvariant.coastAt (now : Nat) : crashInvariant (Machine.setWindow d (coast now (windowAt s d)) s) :=
  h.setWindow ((h.window d).coast now)

theorem crashInvariant.toIdle : crashInvariant (toIdle d s) :=
  crashInvariant.writeWindow (h.setWindow .empty) d _

theorem crashInvariant.startMotor {m : Movement} (k : reversalOpens m) : crashInvariant (startMotor d m s) := by
  have fixed := k.fixDirection (windowAt s d)
  unfold Machine.startMotor
  dsimp only
  split
  · exact (h.tellMove d _ _).toIdle d
  · next passes =>
    split
    · exact (h.tellMove d _ _).toIdle d
    · refine h.setWindow (.moving ?_ nofun fun held => ?_)
      · rintro _ ⟨⟩; exact fixed
      · rintro _ ⟨⟩
        rw [held] at passes
        exact opening_of_moveDenial_none fixed passes

theorem crashInvariant.comeToRest : crashInvariant (comeToRest d s) := by
  have pending := (h.window d).applyPending
  have k : crashInvariant (Machine.setWindow d (applyPending (windowAt s d)) s) := h.setWindow pending
  unfold Machine.comeToRest
  dsimp only
  split
  · exact k.toIdle d
  · next m e =>
    have opens := (pending.1.2 m e).fixReversal d (applyPending (windowAt s d)) s.now
    split
    · refine k.setWindow (.resting ?_ nofun)
      rintro _ ⟨⟩; exact opens
    · exact k.startMotor d opens

theorem crashInvariant.stopMovement (o : Option OpOutcome) : crashInvariant (stopMovement d o s) := by
  have stopped : ∀ x : State, crashInvariant x → x.latches.crashHold = s.latches.crashHold → crashInvariant
      (match (windowAt s d).phase with
       | .running => Machine.setWindow d (coast s.now (windowAt s d)) x
       | .marking => Machine.comeToRest d (Machine.setWindow d { windowAt s d with motion := none, followOn := none } x)
       | .idle => s
       | .coasting => s) := by
    intro x k same
    split
    · exact k.setWindow (same ▸ (h.window d).coast _)
    · exact (k.setWindow .empty).comeToRest d
    · exact h
    · exact h
  unfold Machine.stopMovement
  dsimp only
  cases o with
  | none => exact stopped s h rfl
  | some o => exact stopped _ (h.tellMotion d o) (tellMotion_moves d o s).kept.crashHold

theorem crashInvariant.removeFollowOn (o : Option OpOutcome) : crashInvariant (removeFollowOn d o s) := by
  unfold Machine.removeFollowOn
  dsimp only
  split
  · exact h
  · have k : crashInvariant (Machine.setWindow d { windowAt s d with followOn := none } s) :=
      h.setWindow ⟨⟨(h.window d).1.1, nofun⟩, (h.window d).2⟩
    split
    · exact k.tellMove d _ _
    · exact k

theorem crashInvariant.setFollowOn {m : Movement} (k : reversalOpens m) :
    crashInvariant (Machine.setWindow d { windowAt s d with followOn := some m } s) :=
  h.setWindow ⟨⟨(h.window d).1.1, by rintro _ ⟨⟩; exact k⟩, (h.window d).2⟩

theorem crashInvariant.beginMarking {m : Movement} (k : reversalOpens m) : crashInvariant (beginMarking d m s) := by
  have marked : crashInvariant (Machine.setWindow d { windowAt s d with
      phase := .marking, motion := some (freshMotion m), lastFault := .none,
      record := { (windowAt s d).record with valid := false } } s) := by
    refine h.setWindow (.resting ?_ (h.window d).1.2)
    rintro _ ⟨⟩; exact k
  unfold Machine.beginMarking
  dsimp only
  split
  · exact marked.writeWindow d _
  · exact marked

/-- A movement taken opens under the hold; a REVERSAL is made by a pinch alone (05, R89, R93; 06, R115). -/
theorem crashInvariant.takeMovement {m : Movement} (mode : m.mode ≠ .reversal)
    (opens : s.latches.crashHold = true → m.dir = .opening) : crashInvariant (takeMovement d m s).1 := by
  have told := h.tellMotion d .overridden
  have same := (tellMotion_moves d .overridden s).kept.crashHold
  have w := h.window d
  unfold Machine.takeMovement
  dsimp only
  split
  · split
    · exact h.tellMove d _ _
    · exact h.beginMarking d (reversalOpens_of_ne mode)
  · next marks =>
    refine told.setWindow ?_
    refine .resting ?_ w.1.2 fun e => by rw [marks] at e; cases e
    rintro _ ⟨⟩; exact reversalOpens_of_ne mode
  · next runs =>
    split
    · exact told
    · next x e =>
      split
      · refine crashInvariant.tellMove (told.setWindow ?_) d _ _
        refine .resting (fun y f => ?_) w.1.2
        obtain ⟨z, g, rfl⟩ := Option.map_eq_some_iff.1 f
        obtain ⟨_, -, rfl⟩ := Option.map_eq_some_iff.1 g
        exact reversalOpens_of_ne mode
      · split
        · refine told.setWindow ?_
          refine .moving (fun y f => ?_) w.1.2 fun held y f => ?_
          · obtain ⟨_, -, rfl⟩ := Option.map_eq_some_iff.1 f
            exact reversalOpens_of_ne mode
          · obtain ⟨_, -, rfl⟩ := Option.map_eq_some_iff.1 f
            exact opens (same ▸ held)
        · refine told.setWindow ?_
          refine .resting (fun y f => ?_) ?_
          · obtain ⟨z, g, rfl⟩ := Option.map_eq_some_iff.1 f
            exact w.1.1 z g
          · rintro _ ⟨⟩; exact reversalOpens_of_ne mode
  · next coasts =>
    refine (h.removeFollowOn d _).setWindow ?_
    refine .resting w.1.1 ?_ fun e => by rw [coasts] at e; cases e
    rintro _ ⟨⟩; exact reversalOpens_of_ne mode

theorem crashInvariant.requestMovement {m : Movement} (mode : m.mode ≠ .reversal) :
    crashInvariant (requestMovement d m s).1 := by
  unfold Machine.requestMovement
  dsimp only
  split
  · exact h.tellMove d _ _
  · split
    · exact h.tellMove d _ _
    · next passes =>
      refine h.takeMovement d mode fun held => ?_
      rw [held] at passes
      exact opening_of_moveDenial_none (reversalOpens_of_ne mode) passes

theorem crashInvariant.retireWindow (t : Trigger) : crashInvariant (retireWindow t s d) := by
  have left : ∀ x : State, crashInvariant x → crashInvariant
      (if (windowAt x d).followOn.any (fun m => decide (m.requester = .chain t)) then Machine.removeFollowOn d none x
       else x) := by
    intro x k
    split
    · exact k.removeFollowOn d _
    · exact k
  unfold Machine.retireWindow
  dsimp only
  refine left _ ?_
  split
  · exact h.stopMovement d _
  · exact h

/-! ### Switches (05, R94, R96) -/

theorem crashInvariant.takePlain {dir : Direction} {mode : MoveMode} (own : Bool) (plain : mode = .held ∨ mode = .toEnd)
    (passes : moveDenial s.latches.crashHold (windowAt s d) dir mode = none) :
    crashInvariant (Machine.takeMovement d (plainMove dir mode (switchRequester own) []) s).1 := by
  have notReversal : (plainMove dir mode (switchRequester own) []).mode ≠ .reversal := by
    obtain rfl | rfl := plain <;> exact nofun
  refine h.takeMovement d notReversal fun held => ?_
  rw [held] at passes
  exact opening_of_moveDenial_none (m := plainMove dir mode (switchRequester own) [])
    (reversalOpens_of_ne notReversal) passes

theorem crashInvariant.switchRequest (dir : Direction) (auto own : Bool) :
    crashInvariant (switchRequest d dir auto own s) := by
  have held : crashInvariant (if (moveDenial s.latches.crashHold (windowAt s d) dir .held).isNone
      then (Machine.takeMovement d (plainMove dir .held (switchRequester own) []) s).1 else s) := by
    split
    · next passes => exact h.takePlain d own (.inl rfl) (Option.isNone_iff_eq_none.1 passes)
    · exact h
  unfold Machine.switchRequest
  dsimp only
  split
  · split
    · next passes => exact h.takePlain d own (.inr rfl) passes
    · exact h
    · exact held
  · exact held

theorem crashInvariant.consume (own x : Bool) :
    crashInvariant (Machine.setWindow d (setConsumed own x (windowAt s d)) s) :=
  h.setWindow ((h.window d).setConsumed own x)

theorem crashInvariant.switchNeutral (own : Bool) : crashInvariant (switchNeutral d own s) := by
  have k := h.consume d own false
  unfold Machine.switchNeutral
  dsimp only
  split
  · exact k.stopMovement d _
  · split
    · exact k.removeFollowOn d _
    · exact k

theorem crashInvariant.switchPress (dir : Direction) (auto own : Bool) :
    crashInvariant (switchPress d dir auto own s) := by
  unfold Machine.switchPress
  dsimp only
  split
  · exact (h.stopMovement d _).consume d own true
  · split
    · exact (h.removeFollowOn d _).consume d own true
    · exact h.switchRequest d dir auto own

theorem crashInvariant.switchUpgrade (dir : Direction) (own : Bool) : crashInvariant (switchUpgrade d dir own s) := by
  unfold Machine.switchUpgrade
  dsimp only
  split
  · split
    · next passes => exact h.takePlain d own (.inr rfl) (Option.isNone_iff_eq_none.1 passes)
    · exact h
  · exact h

theorem crashInvariant.switchDelivery (own : Bool) (old new : SwitchPos) :
    crashInvariant (switchDelivery d own old new s) := by
  unfold Machine.switchDelivery
  dsimp only
  repeat' split
  all_goals first
    | exact h
    | exact h.consume _ _ _
    | exact h.switchNeutral _ _
    | exact h.switchUpgrade _ _ _
    | exact h.switchPress _ _ _ _

/-! ### Ends of a movement and edges -/

theorem crashInvariant.endRunning (o : OpOutcome) : crashInvariant (endRunning d o s) :=
  (h.tellMotion d o).coastAt d _

theorem crashInvariant.recordFault (f : WindowFault) : crashInvariant (recordFault d f s) :=
  (h.rewindow d).raise _

theorem crashInvariant.windowFault (f : WindowFault) : crashInvariant (windowFault d f s) :=
  (h.recordFault d f).endRunning d _

theorem crashInvariant.pinch : crashInvariant (pinch d s) := by
  have ended := (h.endRunning d (.fault .pinch)).raise .pinch
  have counted := fun n => ended.rewindow d (w := { windowAt (Machine.raise .pinch
    (Machine.endRunning d (.fault .pinch) s)) d with pinchCount := n })
  unfold Machine.pinch
  dsimp only
  split
  · split
    · exact counted _
    · exact ((counted _).removeFollowOn d _).setFollowOn d fun _ => ⟨rfl, rfl⟩
  · exact counted _

theorem crashInvariant.topStop : crashInvariant (topStop d s) := (h.rewindow d).endRunning d _

theorem crashInvariant.bottomStop : crashInvariant (bottomStop d s) := by
  unfold Machine.bottomStop
  dsimp only
  split
  · exact (h.rewindow d).endRunning d _
  · split
    · exact (h.rewindow d).endRunning d _
    · exact (h.endRunning d _).raise _

theorem crashInvariant.classifyStall (dir : Direction) : crashInvariant (classifyStall d dir s) := by
  unfold Machine.classifyStall
  dsimp only
  repeat' split
  all_goals first
    | exact h.topStop d
    | exact h.pinch d
    | exact h.windowFault d _
    | exact h.bottomStop d

omit h in
theorem countEdge_moves (w : Window) (dir : Direction) : (countEdge w dir).motion = w.motion ∧
    (countEdge w dir).phase = w.phase ∧ (countEdge w dir).followOn = w.followOn := by
  unfold countEdge
  split <;> exact ⟨rfl, rfl, rfl⟩

theorem crashInvariant.runningEdge {m : Motion} (e : (windowAt s d).motion = some m) (p : Nat) :
    crashInvariant (runningEdge d m p s) := by
  have set : ∀ v : Window, v.motion.map Motion.move = some m.move → v.phase = (windowAt s d).phase →
      v.followOn = (windowAt s d).followOn → crashInvariant (Machine.setWindow d v s) := fun v a b c =>
    h.rewindow d (by rw [a, e]; rfl) b c
  unfold Machine.runningEdge
  dsimp only
  split
  · exact (set _ (by rfl) (by rfl) (by rfl)).windowFault d _
  · obtain ⟨cm, cp, cf⟩ := countEdge_moves
      { windowAt s d with lastEdge := some s.now, motion := some { m with pulses := m.pulses + 1 } } m.move.dir
    have counted := set _ (by rw [cm]; rfl) cp cf
    have scored := fun n => set { countEdge
      { windowAt s d with lastEdge := some s.now, motion := some { m with pulses := m.pulses + 1 } } m.move.dir with
        motion := some (evaluate (countEdge { windowAt s d with
          lastEdge := some s.now, motion := some { m with pulses := m.pulses + 1 } } m.move.dir)
            { m with pulses := m.pulses + 1 } n p s.vehicle.supply) } (by rfl) cp cf
    split
    · split
      · split
        · exact (scored _).pinch d
        · split
          · exact (scored _).endRunning d _
          · exact scored _
      · split
        · exact counted.endRunning d _
        · exact counted
    · split
      · exact counted.endRunning d _
      · exact counted

theorem crashInvariant.coastingEdge (m : Motion) : crashInvariant (coastingEdge d m s) := by
  unfold Machine.coastingEdge
  dsimp only
  split
  · exact (h.rewindow d).recordFault d _
  · obtain ⟨cm, cp, cf⟩ := countEdge_moves { windowAt s d with lastEdge := some s.now } m.move.dir
    exact h.rewindow d (by rw [cm]) cp cf

theorem crashInvariant.hallEdge (gap : Nat) : crashInvariant (hallEdge d gap s) := by
  unfold Machine.hallEdge
  dsimp only
  split
  · exact h
  · next m e =>
    have moved : ∀ x : State, crashInvariant x → windowAt x d = windowAt s d → ∀ close : Bool, ∀ p : Nat, crashInvariant
        (match (windowAt s d).phase with
         | .running => if close = true then x else Machine.runningEdge d m p x
         | .coasting => if close = true then x else Machine.coastingEdge d m x
         | .idle => x
         | .marking => x) := by
      intro x k same close p
      split
      · split
        · exact k
        · exact k.runningEdge d (same ▸ e) p
      · split
        · exact k
        · exact k.coastingEdge d m
      · exact k
      · exact k
    refine moved _ ?_ ?_ _ _
    · split
      · exact h.clockTo _
      · exact h
    · split <;> rfl

theorem crashInvariant.stallTimeout : crashInvariant (stallTimeout d s) := by
  unfold Machine.stallTimeout
  dsimp only
  split
  · split
    · exact h
    · exact (h.clockTo _).classifyStall d _
  · exact h

theorem crashInvariant.noPulses : crashInvariant (noPulses d s) := by
  unfold Machine.noPulses
  dsimp only
  split
  · split
    · exact (h.clockTo _).windowFault d _
    · exact h
  · exact h

theorem crashInvariant.runLimit : crashInvariant (runLimit d s) := by
  unfold Machine.runLimit
  dsimp only
  split
  · exact (h.clockTo _).windowFault d _
  · exact h

theorem crashInvariant.coastEnd : crashInvariant (coastEnd d s) := by
  unfold Machine.coastEnd
  dsimp only
  split
  · exact (h.clockTo _).comeToRest d
  · exact h

theorem crashInvariant.motorStart : crashInvariant (motorStart d s) := by
  unfold Machine.motorStart
  dsimp only
  split
  · next m _ e =>
    split
    · exact h
    · exact h.startMotor d ((h.window d).1.1 _ e)
  · exact h

end

end Sys2Proof.Machine

/-! The crash hold across the Chain Engine, the Input Qualifier and the commands (04, R80). -/

namespace Sys2Proof.Machine

open Sys2Proof

-- Many short proofs of one form: elaborated in turn, they do not wait for each other in a thread each.
set_option Elab.async false

/-! ### Chain Engine -/

theorem crashInvariant.deliver {s : State} (h : crashInvariant s) : crashInvariant (deliver s) := by
  refine crashInvariant.foldl (fun x n k => ?_) _ (h.of_units (t := { s with mail := [] }))
  unfold recordNotice
  split
  · exact k
  · split
    · exact k.setRun _ _
    · exact k

section
variable {s : State} (h : crashInvariant s)
include h

theorem crashInvariant.dropWaiter (t : Trigger) : crashInvariant (dropWaiter t s) := h.of_units

theorem crashInvariant.removeRun (t : Trigger) (r : Run) (o : RunOutcome) (l : Option (Fin 64)) :
    crashInvariant (removeRun t r o l s) := h.of_units

theorem crashInvariant.retire (t : Trigger) (o : RunOutcome) : crashInvariant (retire t o s) := by
  unfold Machine.retire
  split
  · exact h
  · exact (((crashInvariant.foldl (fun x d k => k.retireWindow d t) _ h).dropWaiter t).setRefire _ _).removeRun _ _ _ _

theorem crashInvariant.park (t : Trigger) (r : Run) (f : FaultKind × Option Aperture) :
    crashInvariant (park t r f s) := (h.setRun _ _).raise _

theorem crashInvariant.startRelock (t : Trigger) (o : RunOutcome) : crashInvariant (startRelock t o s) := by
  unfold Machine.startRelock
  split
  · exact h.of_units
  · exact h

theorem crashInvariant.suspend (t : Trigger) : crashInvariant (suspend t s) := by
  unfold Machine.suspend
  split
  · exact h
  · exact h.setRun _ _

theorem crashInvariant.issueLatch (t : Trigger) (g : Tag) (a : Aperture) (x : HeldTarget) :
    crashInvariant (issueLatch t g a x s) := by
  unfold Machine.issueLatch
  split
  · exact h.of_units
  · exact h.requestLatch a x _ nofun

theorem crashInvariant.issueWindow (t : Trigger) (g : Tag) (a : Aperture) (st : Step) :
    crashInvariant (issueWindow t g a st s) := by
  unfold Machine.issueWindow
  split
  · exact h
  · split
    · exact h.requestMovement _ nofun
    · exact h.requestMovement _ nofun
    · dsimp only
      split
      · exact h.tell _ _ _ _
      · exact h.requestMovement _ nofun
    · exact h

theorem crashInvariant.issueOne (t : Trigger) (g : Tag) (st : Step) (a : Aperture) :
    crashInvariant (issueOne t g st a s) := by
  unfold Machine.issueOne
  split
  all_goals first
    | exact h.issueLatch _ _ _ _
    | exact h.issueWindow _ _ _ _
    | exact h

theorem crashInvariant.engineOutcome (t : Trigger) (a : Aperture) (o : OpOutcome) :
    crashInvariant (engineOutcome t a o s) := by
  unfold Machine.engineOutcome
  split
  · split
    · exact h.setRun _ _
    · exact h
  · exact h

theorem crashInvariant.issueAperture (t : Trigger) (g : Tag) (st : Step) (a : Aperture) :
    crashInvariant (issueAperture t g st s a) := by
  have issued : crashInvariant (Machine.deliver (discardOwn t g a (Machine.issueOne t g st a s))) :=
    crashInvariant.deliver (crashInvariant.of_units (h.issueOne t g st a))
  unfold Machine.issueAperture
  dsimp only
  split
  · exact h
  · split
    · exact h
    · split
      · exact issued.engineOutcome _ _ _
      · exact issued

theorem crashInvariant.skipMet (t : Trigger) (st : Step) : crashInvariant (skipMet t st s) := by
  unfold Machine.skipMet
  split
  · refine crashInvariant.foldl (fun x a k => ?_) _ h
    split
    · exact k.engineOutcome _ _ _
    · exact k
  · exact h

theorem crashInvariant.issueStep (t : Trigger) (st : Step) : crashInvariant (issueStep t st s) := by
  unfold Machine.issueStep
  split
  · exact h
  · exact crashInvariant.foldl (fun _ a k => k.issueAperture _ _ _ a) _ (h.skipMet t st)

theorem crashInvariant.resume (t : Trigger) (r : Run) (st : Step) : crashInvariant (resume t r st s) := by
  unfold Machine.resume
  split
  · exact h.park _ _ _
  · split
    · exact h.setRun _ _
    · exact h
    · split
      · exact h
      · exact h.issueStep _ _

theorem crashInvariant.activate (t : Trigger) : crashInvariant (activate t s) := by
  unfold Machine.activate
  split
  · exact h
  · dsimp only
    split
    · exact (h.setRun _ _).resume _ _ _
    · exact h.setRun _ _

theorem crashInvariant.preempt (t : Trigger) : crashInvariant (preempt t s) := by
  unfold Machine.preempt
  split
  · split
    · split
      · exact (h.suspend _).activate _
      · exact h
    · exact h
  · exact h

theorem crashInvariant.cancelTrigger (t : Trigger) : crashInvariant (cancelTrigger s t) :=
  (h.retire _ _).setContinue _ _

theorem crashInvariant.takeFiring (f : Firing) (start : Fin 64) : crashInvariant (takeFiring f start s) := by
  unfold Machine.takeFiring
  refine (crashInvariant.stopRelock (crashInvariant.foldl (fun _ u k => k.cancelTrigger u) _ ?_)).preempt _
  exact crashInvariant.of_units (s := Machine.setContinue f.trigger none
    (Machine.setRun f.trigger (some (newRun s f start)) s)) ((h.setRun _ _).setContinue _ _)

theorem crashInvariant.crashSweep : crashInvariant (crashSweep s) := by
  unfold Machine.crashSweep
  refine ((crashInvariant.foldl (fun _ u k => ?_) _ h).setContinue _ _).stopRelock
  exact (k.cancelTrigger u).setRefire _ _

theorem crashInvariant.decideFiring (f : Firing) : crashInvariant (decideFiring f s).1 := by
  unfold Machine.decideFiring
  dsimp only
  split
  · exact h
  · split
    · exact h.takeFiring _ _
    · split
      · exact h.raise _
      · split
        · exact h.setRun _ _
        · exact h
      · split
        · exact h.setRun _ _
        · exact h.setRefire _ _

theorem crashInvariant.fire (f : Firing) : crashInvariant (fire f s).1 := by
  unfold Machine.fire
  split
  · exact h.crashSweep.decideFiring f
  · exact h.decideFiring f

theorem crashInvariant.endRun (t : Trigger) (r : Run) (o : RunOutcome) : crashInvariant (endRun t r o s) := by
  have ended := (h.removeRun t r o (some r.stepIndex)).startRelock t o
  unfold Machine.endRun
  dsimp only
  split
  · exact ended
  · exact (ended.setRefire _ _).fire _

theorem crashInvariant.damagedStep (t : Trigger) (r : Run) : crashInvariant (damagedStep t r s) := by
  unfold Machine.damagedStep
  split
  · exact (h.raise _).endRun _ _ _
  · exact h.park _ _ _

theorem crashInvariant.beginStep (t : Trigger) (r : Run) : crashInvariant (beginStep t r s) := by
  unfold Machine.beginStep
  split
  · exact h.endRun _ _ _
  · dsimp only
    split
    · exact (h.setRun _ _).damagedStep _ _
    · split
      · exact (h.setRun _ _).endRun _ _ _
      · exact h.setRun _ _
      · exact (h.setRun _ _).requestSearch _ _ _
      · split
        · exact h.setRun _ _
        · exact (h.setRun _ _).issueStep _ _

theorem crashInvariant.afterStep (t : Trigger) (r : Run) (st : Step) : crashInvariant (afterStep t r st s) := by
  have noted : crashInvariant (if hasNotify st then Machine.raise .chainNotify s else s) := by
    split
    · exact h.raise _
    · exact h
  unfold Machine.afterStep
  dsimp only
  split
  · exact noted.endRun _ _ _
  · split
    · exact (noted.setContinue _ _).endRun _ _ _
    · split
      · exact noted.endRun _ _ _
      · exact noted.setRun _ _

theorem crashInvariant.completeStep (t : Trigger) (r : Run) (st : Step) : crashInvariant (completeStep t r st s) := by
  unfold Machine.completeStep
  split
  · exact (h.raise _).endRun _ _ _
  · split
    · split
      · exact ((h.setRun _ _).raise _).afterStep _ _ _
      · exact h.park _ _ _
    · exact h.afterStep _ _ _

theorem crashInvariant.engineMove {t : State} (e : engineMove s = some t) : crashInvariant t := by
  unfold Machine.engineMove at e
  split at e
  · cases e
  · split at e
    · cases e
    · split at e
      · cases e; exact h.beginStep _ _
      · split at e
        · cases e; exact h.completeStep _ _ _
        · cases e

omit h in
theorem crashInvariant.settle (n : Nat) {s : State} (h : crashInvariant s) : crashInvariant (settle n s) := by
  induction n generalizing s with
  | zero => exact h
  | succ n ih =>
    unfold Machine.settle
    split
    · exact h
    · next e => exact ih (h.engineMove e)

theorem crashInvariant.finishEvent : crashInvariant (finishEvent s) := (h.deliver.settle 140).deliver

theorem crashInvariant.testSpeedLock : crashInvariant (testSpeedLock s) := by
  unfold Machine.testSpeedLock
  split
  · exact crashInvariant.fire (s := { s with engine := { s.engine with armed := false } }) h.of_units _
  · exact h

end

end Sys2Proof.Machine

/-! The crash hold kept by every command (04, R79; 05, R93): the crash itself, the inputs, the requests, the loading. -/

namespace Sys2Proof.Machine

open Sys2Proof

-- Many short proofs of one form: elaborated in turn, they do not wait for each other in a thread each.
set_option Elab.async false

/-! ### The crash -/

theorem crashWindow_moves_window (s : State) (d : Door) :
    ((windowAt (crashWindow s d) d).motion = none ∨
      (windowAt (crashWindow s d) d).motion.map Motion.move = (windowAt s d).motion.map Motion.move) ∧
    (windowAt (crashWindow s d) d).followOn = none := by
  rw [crashWindow, removeFollowOn_window]
  refine ⟨?_, rfl⟩
  by_cases runs : (windowAt s d).phase = .running
  · rw [stopMovement_running _ runs, windowAt_setWindow_same]
    right
    simp [coast, Function.comp_def]
  · by_cases marks : (windowAt s d).phase = .marking
    · have none : (applyPending { windowAt s d with motion := none, followOn := none }).followOn = none := rfl
      left
      rw [stopMovement_marking _ marks, comeToRest]
      simp only [windowAt_setWindow_same, none, toIdle, windowAt_writeWindow]
    · rw [stopMovement_still _ runs marks]
      exact .inr rfl

theorem reversalsOpen_crashWindow {s : State} (h : ∀ d, reversalsOpen (windowAt s d)) (e d : Door) :
    reversalsOpen (windowAt (crashWindow s e) d) := by
  by_cases same : e = d
  · subst same
    obtain ⟨motion, followOn⟩ := crashWindow_moves_window s e
    refine ⟨fun m some => ?_, fun m some => ?_⟩
    · obtain none | moves := motion
      · rw [none] at some; cases some
      · rw [some, Option.map_some] at moves
        obtain ⟨x, was, eq⟩ := Option.map_eq_some_iff.1 moves.symm
        rw [← eq]
        exact (h e).1 x was
    · rw [followOn] at some; cases some
  · rw [crashWindow_other same]; exact h d

theorem reversalsOpen_foldl (l : List Door) {s : State} (h : ∀ d, reversalsOpen (windowAt s d)) (d : Door) :
    reversalsOpen (windowAt (l.foldl crashWindow s) d) := by
  induction l generalizing s with
  | nil => exact h d
  | cons e l ih => exact ih (reversalsOpen_crashWindow h e)

/-- A latch as the crash leaves it is driven nowhere but to UNLOCKED. -/
theorem latchSafe_crashedAt {s : State} {a : Aperture} (h : crashUnlocks (latchAt s a)) (hold : Bool) :
    latchSafe hold (crashedAt s a) := by
  have held : (crashedAt s a).held = none := crashed_fields.1
  have drive : ∀ d, (crashedAt s a).drive = some d → d.target = .unlocked := fun d driven => (crashed_drive h.1 driven).1
  refine ⟨⟨fun d driven _ => drive d driven, fun x some => ?_⟩, fun _ => drive⟩
  rw [held] at some
  cases some

theorem crashInvariant.crashStopped {s : State} (h : crashInvariant s) : crashInvariant (crashStopped s) := by
  have work := crashStopped_work s
  have latches : (Machine.crashStopped s).latches = (crashLatches s).latches := by rw [work]
  have hold : (Machine.crashStopped s).latches.crashHold = true := by rw [latches]; exact crashLatches_crashHold s
  have windows : (crashLatches s).windows = s.windows := by
    rw [crashLatches_work s]
    unfold holding
    split <;> rfl
  refine (crashInvariant_iff _).2 ⟨fun _ => hold, fun a => ?_, fun d => ⟨?_, fun _ runs => ?_⟩⟩
  · have same : latchAt (Machine.crashStopped s) a = crashedAt s a := by
      rw [latchAt, latches]
      exact latchAt_crashLatches s a
    rw [same]
    exact latchSafe_crashedAt (h.latch a).1 _
  · refine reversalsOpen_foldl allDoors (fun e => ?_) d
    rw [windowAt, windows]
    exact (h.window e).1
  · exact absurd runs (crashStopped_rest s d).1

theorem crashInvariant.crashEvent {s : State} (h : crashInvariant s) : crashInvariant (crashEvent s) := by
  rw [crashEvent_eq]
  split
  · exact h.crashStopped.fire _
  · exact h.crashStopped.of_units

theorem crashInvariant.wake {s : State} (h : crashInvariant s) (w : WakeSource) : crashInvariant (wake w s) :=
  crashInvariant_freeOfLink.wake h w

theorem crashInvariant.reply {s : State} (h : crashInvariant s) (st : Status) (p : List Byte) :
    crashInvariant (reply st p s) := crashInvariant_freeOfLink.reply h st p

theorem crashInvariant.setInputs {s : State} (h : crashInvariant s) (x : Inputs) : crashInvariant (setInputs x s) :=
  h.of_units

theorem crashInvariant.crashExpiry {s : State} (h : crashInvariant s) : crashInvariant (crashExpiry s) := by
  unfold Machine.crashExpiry
  dsimp only
  split
  · exact (((h.clockTo _).setInputs _).wake .crash).crashEvent
  · exact (h.clockTo _).setInputs _
  · exact h
  · exact h

/-! ### The inputs -/

section
variable {s : State} (h : crashInvariant s)
include h

theorem crashInvariant.deliverSwitch (w : WinSwitch) (p : SwitchPos) : crashInvariant (deliverSwitch w p s) :=
  crashInvariant.switchDelivery (h.setInputs _) _ _ _ _

theorem crashInvariant.releaseSwitch (w : WinSwitch) : crashInvariant (releaseSwitch s w) := by
  unfold Machine.releaseSwitch
  split
  · exact h
  · exact h.deliverSwitch _ _

theorem crashInvariant.closeGate : crashInvariant (closeGate s) := by
  unfold Machine.closeGate
  split
  · exact h
  · exact .foldl (fun s w k => k.releaseSwitch w) _ h

theorem crashInvariant.switchQualified (w : WinSwitch) : crashInvariant (switchQualified w s) := by
  have set := h.setInputs
    (setSwitch w { switchAt s.inputs w with pos := qualified (switchAt s.inputs w).pos } s.inputs)
  unfold Machine.switchQualified
  dsimp only
  split
  · exact set.releaseSwitch w
  · split
    · exact set.deliverSwitch w _
    · exact set

theorem crashInvariant.handlePull (d : Door) : crashInvariant (handlePull d s) := by
  unfold Machine.handlePull
  split
  · exact h.requestLatch _ _ _ nofun
  · exact h

theorem crashInvariant.rockerPress (f : Front) (l : Bool) : crashInvariant (rockerPress f l s) := by
  unfold Machine.rockerPress
  dsimp only
  split
  · exact h
  · exact h.fire _

theorem crashInvariant.childPress : crashInvariant (childPress s) := by
  unfold Machine.childPress
  dsimp only
  generalize (if ((childAt s .rl).target && (childAt s .rr).target) = true then HeldTarget.off else .on) = x
  have left := h.requestLatch .rl x (q := .childButton) [] nofun
  exact left.requestLatch .rr x (q := .childButton) [] nofun

theorem crashInvariant.takeNow (x : Deferred) : crashInvariant (takeNow x s) := by
  cases x with
  | pull d => exact h.handlePull d
  | rocker f l => exact h.rockerPress f l
  | childButton => exact h.childPress
  | release => exact h.requestLatch _ _ _ nofun
  | chain a x t g => exact (h.requestLatch a x [g] (q := .chain t) nofun).of_units

theorem crashInvariant.takeOrDefer (x : Deferred) : crashInvariant (takeOrDefer x s) := by
  unfold Machine.takeOrDefer
  split
  · exact h.takeNow x
  · exact h.of_units

theorem crashInvariant.deferredTake : crashInvariant (deferredTake s) := by
  unfold Machine.deferredTake
  split
  · exact h
  · next x rest _ =>
    have taken : crashInvariant { s with latches := { s.latches with deferred := rest } } := h.of_units
    exact (taken.takeNow x).finishEvent

theorem crashInvariant.tailgatePressed : crashInvariant (tailgatePressed s) := by
  unfold Machine.tailgatePressed routeTailgate
  split
  · split
    · exact h.requestSearch _ _ _
    · exact h.takeOrDefer _
  · exact h.of_units

theorem crashInvariant.routeWaiting : crashInvariant (routeWaiting s) := by
  unfold Machine.routeWaiting
  dsimp only
  split
  · exact .foldl (fun s _ k => k.requestSearch _ _ _) _ (h.of_units)
  · exact h

theorem crashInvariant.pairDelivered (a : Aperture) (v : Levels) (first : Bool) :
    crashInvariant (pairDelivered a v first s) := by
  unfold Machine.pairDelivered
  dsimp only
  split
  · exact (h.latchSensed _ _ _).routeWaiting
  · exact h.latchSensed _ _ _

theorem crashInvariant.endRetained : crashInvariant (endRetained s) :=
  crashInvariant.closeGate (s := { s with vehicle := { s.vehicle with retained := none } }) h.of_units

theorem crashInvariant.ajarDelivered (a : Aperture) (nowOpen : Bool) : crashInvariant (ajarDelivered a nowOpen s) := by
  cases nowOpen with
  | false => exact (h.wake .ajar).testSpeedLock
  | true =>
    have opens : crashInvariant (opened (Machine.wake .ajar s)) := (h.wake .ajar).of_units
    by_cases front : a = .fl ∨ a = .fr
    · rw [ajarDelivered_front front]
      exact opens.endRetained
    · rw [ajarDelivered_other front]
      exact opens

theorem crashInvariant.padExpiry (p : Pad) : crashInvariant (padExpiry p s) := by
  unfold Machine.padExpiry
  dsimp only
  split
  · unfold touched
    dsimp only
    split
    · exact (((h.clockTo _).setInputs _).wake .touch).requestSearch _ _ _
    · exact ((h.clockTo _).setInputs _).wake .touch
  · exact (h.clockTo _).setInputs _
  · exact h
  · exact h

/-- Every input's qualification keeps the crash hold. -/
theorem crashInvariant.qualify (i : Input) : crashInvariant (qualify i s) := by
  have set := fun n x => (h.clockTo n).setInputs x
  cases i with
  | pair a =>
    rw [qualify_pair]
    dsimp only
    split
    · exact (set _ _).pairDelivered _ _ _
    · exact h
  | childSwitch r =>
    rw [qualify_childSwitch]
    dsimp only
    split
    · exact (set _ _).childSensed _ _ _
    · exact h
  | ajar a =>
    unfold Machine.qualify
    dsimp only
    split
    · exact (set _ _).ajarDelivered _ _
    · exact h
  | handle d =>
    rw [qualify_handle]
    dsimp only
    split
    · split
      · exact ((set _ _).wake _).takeOrDefer _
      · exact set _ _
    · exact h
  | rocker f =>
    rw [qualify_rocker]
    dsimp only
    split
    · split
      · exact ((set _ _).wake _).takeOrDefer _
      · exact set _ _
    · exact h
  | childButton =>
    rw [qualify_childButton]
    dsimp only
    split
    · split
      · exact (set _ _).takeOrDefer _
      · exact set _ _
    · exact h
  | tailgateButton =>
    rw [qualify_tailgateButton]
    dsimp only
    split
    · split
      · exact ((set _ _).wake _).tailgatePressed
      · exact set _ _
    · exact h
  | pad p => exact h.padExpiry p
  | windowSwitch w =>
    rw [qualify_windowSwitch]
    split
    · exact (h.clockTo _).switchQualified w
    · exact h
  | crashLine => exact h.crashExpiry

theorem crashInvariant.takeVehicleState (n : Nat) (p : PowerMode) : crashInvariant (takeVehicleState n p s) := by
  have tells : crashInvariant (told n s) := h.of_units
  have powers : crashInvariant (changePower p (told n s)) := by
    by_cases same : p = (told n s).vehicle.powerMode
    · rw [changePower_same same]; exact tells
    · rw [changePower_other same]
      exact crashInvariant.closeGate (s := powered p (told n s)) tells.of_units
  rw [takeVehicleState_eq]
  refine crashInvariant.testSpeedLock ?_
  unfold updated
  dsimp only
  split
  · exact powers.of_units
  · exact powers

/-! ### The requests -/

theorem crashInvariant.takeHostLatch (x : HeldTarget) (a : Aperture) : crashInvariant (takeHostLatch x a s) := by
  have answers : ∀ (y : Answer) {t : State}, crashInvariant t → crashInvariant (replyLatch y t) := by
    intro y t k
    cases y <;> exact k.reply _ _
  unfold Machine.takeHostLatch
  split
  · exact h.reply _ _
  · exact answers _ (h.requestLatch a x [] (q := .link) nofun).finishEvent

omit h in
theorem crashInvariant.replyWindow {s : State} (h : crashInvariant s) (x : WindowAnswer) :
    crashInvariant (replyWindow x s) := by
  cases x <;> exact h.reply _ _

theorem crashInvariant.takeHostMove (d : Door) {m : Movement} (mode : m.mode ≠ .reversal) :
    crashInvariant (takeHostMove d m s) :=
  (h.requestMovement d mode).finishEvent.replyWindow _

theorem crashInvariant.onWindow (a : Aperture) {f : Door → State → State} (k : ∀ d, crashInvariant (f d s)) :
    crashInvariant (onWindow a f s) := by
  unfold Machine.onWindow
  split
  · exact h.reply _ _
  · exact k _

theorem crashInvariant.takeWindowTo (p : Nat) (d : Door) : crashInvariant (takeWindowTo p d s) := by
  unfold Machine.takeWindowTo
  dsimp only
  split
  · exact h.takeHostMove d nofun
  · exact h.replyWindow _

theorem crashInvariant.takeWindowStop (d : Door) : crashInvariant (takeWindowStop d s) := by
  unfold Machine.takeWindowStop
  dsimp only
  split
  · exact h.reply _ _
  · split
    · exact ((h.stopMovement d _).removeFollowOn d _).finishEvent.reply _ _
    · exact h.reply _ _

theorem crashInvariant.takeWindowSetup (l : Nat) (b : Bool) (d : Door) : crashInvariant (takeWindowSetup l b d s) := by
  unfold Machine.takeWindowSetup
  dsimp only
  split
  · split
    · exact h.reply _ _
    · exact (h.rewindow d).writeWindow d _
  · exact (h.rewindow d).reply _ _

theorem crashInvariant.takeWindowRelearn (d : Door) : crashInvariant (takeWindowRelearn d s) := by
  unfold Machine.takeWindowRelearn
  dsimp only
  split
  · exact (h.rewindow d).writeWindow d _
  · exact (h.rewindow d).reply _ _

theorem crashInvariant.beginChange (i : Fin 8) (c : KeyChange) : crashInvariant (beginChange i c s) := by
  unfold Machine.beginChange
  split
  · exact h.reply _ _
  · split
    · exact h.reply _ _
    · exact crashInvariant.offer (s := setKey i { changed (keyAt s i) c with marker := .linkChange } s) h.of_units _ _ _

theorem crashInvariant.requestChange (i : Fin 8) (c : KeyChange) : crashInvariant (requestChange i c s) := by
  unfold Machine.requestChange
  split
  · exact h.beginChange i c
  · exact h.of_units

theorem crashInvariant.persistDefault (n : Nat) : crashInvariant (persistDefault n s) := by
  unfold Machine.persistDefault
  split
  · exact h.of_units
  · exact h.of_units

theorem crashInvariant.changeSettings (x : Settings) : crashInvariant (changeSettings x s) := by
  have released : crashInvariant (if x.driverFr = s.link.settings.driverFr then s else Machine.releaseSwitch s .passenger) := by
    split
    · exact h
    · exact h.releaseSwitch _
  unfold Machine.changeSettings
  dsimp only
  refine crashInvariant.offer (crashInvariant.finishEvent ?_) _ _ _
  generalize (if x.driverFr = s.link.settings.driverFr then s else Machine.releaseSwitch s .passenger) = y at released
  have set : crashInvariant { y with link := { y.link with settings := x } } := released.of_units
  split
  · exact set
  · exact set.testSpeedLock

theorem crashInvariant.takeTriggerFire (i : Fin 64) (p : Nat) (a : Aperture) :
    crashInvariant (takeTriggerFire i p a s) := by
  unfold Machine.takeTriggerFire
  split
  · exact h.reply _ _
  · exact (h.fire _).finishEvent.reply _ _

theorem crashInvariant.resolve (t : Trigger) {f : Run → State → State} (k : ∀ r, crashInvariant (f r s)) :
    crashInvariant (resolve t f s) := by
  unfold Machine.resolve
  split
  · exact h.reply _ _
  · split
    · exact (k _).finishEvent.reply _ _
    · exact h.reply _ _

/-- The hold ends only after the scan, so that what it forbids is free. -/
theorem crashInvariant.takeClearCrash (done : s.store.scanDone = true) : crashInvariant (takeClearCrash s) := by
  unfold Machine.takeClearCrash
  split
  · exact h.reply _ _
  · split
    · exact h.reply _ _
    · refine crashInvariant.offer ((crashInvariant_iff _).2 ⟨fun scanning => ?_, fun a => ?_, fun d => ?_⟩) _ _ _
      · exact nomatch done.symm.trans scanning
      · exact ⟨(h.latch a).1, nofun⟩
      · exact ⟨(h.window d).1, nofun⟩

end

/-- Every owner keeps the crash hold. -/
theorem owner_keepsCrashHold {c : Instr} {f : State → State} (e : ownerOf c = some f) : Keeps crashInvariant f := by
  have ready : ∀ {f : State → State}, (∀ s, s.store.scanDone = true → crashInvariant s → crashInvariant (f s)) →
      Keeps crashInvariant (Machine.ready f) := fun h => crashInvariant_freeOfLink.ready h
  have needs : ∀ {α : Type} {x : Option α} {f : α → State → State} {s : State}, crashInvariant s →
      (∀ a, crashInvariant (f a s)) → crashInvariant (Machine.needs x f s) := fun k h => crashInvariant_freeOfLink.needs k h
  have answer : ∀ {st : State → Status} {p : State → List Byte},
      Keeps crashInvariant fun s => reply (st s) (p s) s := fun s k => k.reply _ _
  cases c <;> try cases e
  case deviceStatus => exact answer
  case deviceStatusClear => exact ready fun s _ h => crashInvariant.reply (crashInvariant_freeOfLink.sup h _ _) _ _
  case reset => exact ready fun s _ h => crashInvariant.reply (crashInvariant_freeOfLink.sup h _ _) _ _
  case park =>
    refine ready fun s _ h => ?_
    split
    · exact (crashInvariant.closeGate h.of_units).reply _ _
    · exact h.reply _ _
  case vehicleState =>
    exact ready fun s _ h => needs h fun p => (h.takeVehicleState _ p).finishEvent.reply _ _
  case attentionRead => exact ready fun s _ h => crashInvariant.reply (crashInvariant_freeOfLink.link h _) _ _
  case attentionMask => exact ready fun s _ h => crashInvariant.reply (crashInvariant_freeOfLink.link h _) _ _
  case settingsRead => exact ready fun s _ h => h.reply _ _
  case settingsWrite =>
    refine ready fun s _ h => needs h fun x => needs h fun y => ?_
    unfold takeSettings
    split
    · exact h.reply _ _
    · exact h.changeSettings _
  case keyLookup => exact ready fun s _ h => needs h fun i => h.reply _ _
  case keyFind =>
    refine ready fun s _ h => ?_
    split <;> exact h.reply _ _
  case keyEnroll => exact ready fun s _ h => needs h fun i => needs h fun r => needs h fun p => h.requestChange i _
  case keyProfile => exact ready fun s _ h => needs h fun i => needs h fun p => h.requestChange i _
  case keyRole => exact ready fun s _ h => needs h fun i => needs h fun r => h.requestChange i _
  case keySuspend => exact ready fun s _ h => needs h fun i => h.requestChange i _
  case keyResume => exact ready fun s _ h => needs h fun i => h.requestChange i _
  case keyRevoke => exact ready fun s _ h => needs h fun i => h.requestChange i _
  case enrollOpen => exact ready fun s _ h => h.requestSearch _ _ _
  case apertureRead => exact ready fun s _ h => needs h fun l => h.reply _ _
  case apertureCommandLock => exact ready fun s _ h => needs h fun a => h.takeHostLatch _ a
  case apertureCommandUnlock => exact ready fun s _ h => needs h fun a => h.takeHostLatch _ a
  case apertureCommandDeadlock => exact ready fun s _ h => needs h fun a => h.takeHostLatch _ a
  case apertureCommandChildOn => exact ready fun s _ h => needs h fun a => h.takeHostLatch _ a
  case apertureCommandChildOff => exact ready fun s _ h => needs h fun a => h.takeHostLatch _ a
  case apertureCommandTailgateRelease => exact ready fun s _ h => needs h fun a => h.takeHostLatch _ a
  case apertureCommandWindowOpen =>
    exact ready fun s _ h => needs h fun a => h.onWindow a fun d => h.takeHostMove d nofun
  case apertureCommandWindowClose =>
    exact ready fun s _ h => needs h fun a => h.onWindow a fun d => h.takeHostMove d nofun
  case apertureCommandWindowTo =>
    exact ready fun s _ h => needs h fun a => needs h fun p => h.onWindow a fun d => h.takeWindowTo p d
  case windowStop => exact ready fun s _ h => needs h fun a => h.onWindow a fun d => h.takeWindowStop d
  case windowSetup => exact ready fun s _ h => needs h fun d => needs h fun x => h.takeWindowSetup _ x d
  case windowRelearn => exact ready fun s _ h => needs h fun d => h.takeWindowRelearn d
  case stepRead => exact ready fun s _ h => needs h fun i => h.reply _ _
  case stepWrite =>
    refine ready fun s _ h => needs h fun i => needs h fun a => needs h fun x => ?_
    exact needs h fun g => needs h fun r => needs h fun f => needs h fun n => h.of_units
  case triggerRead => exact ready fun s _ h => needs h fun t => h.reply _ _
  case triggerWrite =>
    refine ready fun s _ h => needs h fun t => needs h fun st => needs h fun g => ?_
    exact needs h fun x => needs h fun c => h.of_units
  case chainsDefault => exact ready fun s _ h => crashInvariant.persistDefault (s := loadDefaults s) h.of_units 0
  case triggerFire => exact ready fun s _ h => needs h fun i => needs h fun a => h.takeTriggerFire i _ a
  case runStatus => exact ready fun s _ h => h.reply _ _
  case runResolveRetry =>
    refine ready fun s _ h => needs h fun t => h.resolve t fun r => ?_
    exact (h.setRun t _).preempt t
  case runResolveAbandon => exact ready fun s _ h => needs h fun t => h.resolve t fun r => h.retire t _
  case clearCrash => exact ready fun s done h => h.takeClearCrash done

end Sys2Proof.Machine

/-! The crash hold kept by every event and every step. -/

namespace Sys2Proof.Machine

open Sys2Proof

-- Many short proofs of one form: elaborated in turn, they do not wait for each other in a thread each.
set_option Elab.async false

section
variable {s : State} (h : crashInvariant s)
include h

/-! ### Entry -/

theorem crashInvariant.judge (f : StampedFrame) : crashInvariant (judge f s) := by
  unfold Machine.judge
  split
  · exact h.of_units
  · split
    · exact h.of_units
    · split
      · exact h.of_units
      · exact h.of_units

theorem crashInvariant.frameTake : crashInvariant (frameTake s) := by
  unfold Machine.frameTake
  split
  · split
    · exact h
    · next f rest _ => exact crashInvariant.judge (s := { s with entry := { s.entry with rfQueue := rest } }) h.of_units f
  · exact h

theorem crashInvariant.rfArrival (b : List Byte) : crashInvariant (rfArrival b s) := by
  have woken := h.wake .rf
  unfold Machine.rfArrival
  dsimp only
  split
  · exact woken
  · unfold offerFrame
    split
    · exact woken.of_units
    · exact woken
  · unfold takeResponse
    split
    · exact woken
    · split
      · exact woken.of_units
      · exact woken

theorem crashInvariant.searchStart : crashInvariant (searchStart s) := by
  unfold Machine.searchStart
  split
  · split
    · exact h
    · exact h.of_units
  · exact h

theorem crashInvariant.challengeEnd : crashInvariant (challengeEnd s) := by
  unfold Machine.challengeEnd
  split
  · exact h
  · split
    · exact h
    · exact h.of_units

theorem crashInvariant.passiveResult (x : Search) (t : Trigger) (c : AccessCommand) :
    crashInvariant (passiveResult x t c s) := by
  unfold Machine.passiveResult
  split
  · exact h
  · next k _ =>
    exact (h.fire { trigger := t,
                    carried := { origin := searchOrigin x.zone, role := k.role, slot := some k.slot, profile := some k.profile },
                    holdMark := false, request := none }).of_units

theorem crashInvariant.insideResult (b : Bool) (w : SearchWaiter) : crashInvariant (insideResult b s w) := by
  unfold Machine.insideResult
  split
  · exact h
  · split
    · exact h
    · split
      · exact h.setRun _ _
      · exact h

theorem crashInvariant.enrollResult (l : List (Fin 8)) : crashInvariant (enrollResult l s) := by
  unfold Machine.enrollResult
  split
  · exact h.of_units
  · exact h.reply _ _

theorem crashInvariant.searchComplete : crashInvariant (searchComplete s) := by
  unfold Machine.searchComplete
  split
  · exact h
  · next x _ =>
    split
    · have ended : crashInvariant { Machine.clockTo (x.start + Times.searchTime) s with
          entry := { (Machine.clockTo (x.start + Times.searchTime) s).entry with search := none } } := h.of_units
      dsimp only
      split
      · exact (ended.passiveResult x _ _).finishEvent
      · split
        · exact (crashInvariant.foldl (fun s w k => k.insideResult _ w) _ ended).finishEvent
        · exact ended.enrollResult _
    · exact h

theorem crashInvariant.enrollExpiry : crashInvariant (enrollExpiry s) := by
  unfold Machine.enrollExpiry
  split
  · exact h
  · exact h.of_units

/-! ### The store -/

theorem crashInvariant.carryOut (i : Fin 8) (f : StampedFrame) : crashInvariant (carryOut i f s) := by
  unfold Machine.carryOut
  dsimp only
  split
  · exact h.of_units
  · exact (h.fire { trigger := fobTrigger f.frame.command,
                    carried := { origin := driverAperture s, role := (keyAt s i).stored.role, slot := some i,
                                 profile := some (keyAt s i).stored.profile },
                    holdMark := isHold f.frame.command, request := none }).of_units

theorem crashInvariant.counterStored (i : Fin 8) : crashInvariant (counterStored i s) := by
  unfold Machine.counterStored
  split
  · split
    · exact h.carryOut i _
    · exact h
  · exact h

theorem crashInvariant.matchResumed (i : Fin 8) : crashInvariant (matchResumed i s) := by
  unfold Machine.matchResumed
  split
  · split
    · exact h.judge _
    · exact h
  · exact h

theorem crashInvariant.beginWaiting (i : Fin 8) : crashInvariant (beginWaiting i s) := by
  unfold Machine.beginWaiting
  split
  · exact h
  · split
    · exact crashInvariant.beginChange (s := { s with keys := { s.keys with waiting := none } }) h.of_units i _
    · exact h

theorem crashInvariant.clearMarker (i : Fin 8) : crashInvariant (clearMarker i s) := h.of_units

theorem crashInvariant.tellWaiter (w : WriteWaiter) : crashInvariant (tellWaiter s w) := by
  cases w with
  | counterPersist i => exact ((h.clearMarker i).counterStored i).beginWaiting i
  | linkChange i => exact ((h.clearMarker i).reply _ _).matchResumed i
  | marker d => exact h
  | applied => exact h.reply _ _
  | replyOk => exact h.reply _ _
  | chainsDefault =>
    unfold Machine.tellWaiter
    dsimp only
    split
    · exact h.persistDefault _
    · exact h

theorem crashInvariant.writeComplete : crashInvariant (writeComplete s) := by
  unfold Machine.writeComplete
  split
  · exact h
  · exact (crashInvariant.foldl (fun s w k => k.tellWaiter w) _ (h.of_units)).finishEvent

theorem crashInvariant.writeStart : crashInvariant (writeStart s) := by
  unfold Machine.writeStart
  split
  · split
    · exact h.of_units
    · exact h.of_units
    · exact h
  · exact h

/-! ### The loading (09, R163): what stood under the hold is safe whether or not the hold stays -/

theorem crashInvariant.loadHold (undone : s.store.scanDone = false) : crashInvariant (formRepairs (loadCrash s)) := by
  have held := h.1 undone
  have all : crashInvariant { loadCrash s with store := { (loadCrash s).store with scanDone := true } } := by
    refine (crashInvariant_iff _).2 ⟨nofun, fun a => ?_, fun d => ?_⟩
    · have safe := h.latch a
      exact ⟨safe.1, fun _ => safe.2 held⟩
    · have safe := h.window d
      exact ⟨safe.1, fun _ => safe.2 held⟩
  unfold formRepairs
  dsimp only
  split
  · exact all.of_units
  · exact all.of_units

theorem crashInvariant.scanComplete : crashInvariant (scanComplete s) := by
  have loaded : crashInvariant (loadSettings (loadWindows (loadTables s))) := by
    have tables : crashInvariant (loadTables s) := h.of_units
    have windows : crashInvariant (loadWindows (loadTables s)) :=
      .foldl (fun s d k => k.rewindow d) _ tables
    exact windows.of_units
  unfold Machine.scanComplete
  split
  · exact h
  · next undone =>
    have scanning : (loadSettings (loadWindows (loadTables s))).store.scanDone = false :=
      Bool.eq_false_iff.mpr undone
    have formed := loaded.loadHold scanning
    refine crashInvariant.finishEvent ?_
    unfold deliverCrash
    split
    · exact crashInvariant.fire (s := { formRepairs (loadCrash (loadSettings (loadWindows (loadTables s)))) with
        latches := { (formRepairs (loadCrash (loadSettings (loadWindows (loadTables s))))).latches with
          crashPending := false } }) formed.of_units _
    · exact formed

/-! ### The timers -/

theorem crashInvariant.pulseEnd : crashInvariant (pulseEnd s) := by
  unfold Machine.pulseEnd
  split
  · exact h
  · next p _ =>
    exact crashInvariant.tell (s := { Machine.clockTo p.ending s with latches := { s.latches with
      pulse := none, interval := some ((Machine.clockTo p.ending s).now + Times.intervalTime) } }) h.of_units _ _ _ _

theorem crashInvariant.relockExpiry : crashInvariant (relockExpiry s) := by
  unfold Machine.relockExpiry
  split
  · exact h
  · exact ((h.clockTo _).stopRelock.fire _).finishEvent

theorem crashInvariant.pauseEnd : crashInvariant (pauseEnd s) := by
  unfold Machine.pauseEnd
  split
  · exact h
  · split
    · exact h
    · split
      · exact ((h.clockTo _).setRun _ _).finishEvent
      · exact h

theorem crashInvariant.engineChoice : crashInvariant (engineChoice s) := by
  unfold Machine.engineChoice
  split
  · exact h
  · split
    · exact h
    · exact (h.activate _).finishEvent

end

/-- Every event keeps the crash hold. -/
theorem event_keepsCrashHold {c : Instr} {f : State → State} (e : eventOf c = some f) : Keeps crashInvariant f := by
  cases c <;> try cases e
  case scanComplete => exact fun s h => h.scanComplete
  case storeWriteStart => exact fun s h => h.writeStart
  case storeWriteComplete => exact fun s h => h.writeComplete
  case rfFrameArrival b => exact fun s h => h.rfArrival b
  case frameTake => exact fun s h => h.frameTake
  case searchStart => exact fun s h => h.searchStart
  case challengeEnd => exact fun s h => h.challengeEnd
  case searchComplete => exact fun s h => h.searchComplete
  case enrollWindowExpiry => exact fun s h => h.enrollExpiry
  case qualificationTimeExpiry i => exact fun s h => (h.qualify i).finishEvent
  case deferredRequestTake => exact fun s h => h.deferredTake
  case supplyMeasurement => exact fun s h => h.of_units
  case latchHeldStart a => exact fun s h => (h.heldStart a).finishEvent
  case latchDriveLimit a => exact fun s h => (h.driveLimit a).finishEvent
  case releasePulseEnd => exact fun s h => h.pulseEnd.finishEvent
  case releaseIntervalEnd =>
    intro s h
    unfold intervalEnd
    split
    · exact h
    · exact h.of_units
  case hallEdge d g => exact fun s h => (h.hallEdge d g).finishEvent
  case stallTimeout d => exact fun s h => (h.stallTimeout d).finishEvent
  case noPulses d => exact fun s h => (h.noPulses d).finishEvent
  case runLimit d => exact fun s h => (h.runLimit d).finishEvent
  case coastEnd d => exact fun s h => (h.coastEnd d).finishEvent
  case motorStart d => exact fun s h => (h.motorStart d).finishEvent
  case retainedPowerExpiry =>
    intro s h
    unfold retainedExpiry
    split
    · exact h
    · exact (h.clockTo _).endRetained.finishEvent
  case speedStale =>
    intro s h
    unfold speedStale
    split
    · exact h
    · exact h.clockTo _
  case silenceTimerExpiry =>
    intro s h
    unfold silenceExpiry
    split
    · exact h
    · split
      · exact h.of_units
      · exact h
  case relockTimerExpiry => exact fun s h => h.relockExpiry
  case continuePointExpiry u =>
    intro s h
    unfold continueExpiry
    split
    · exact h
    · exact (h.clockTo _).setContinue u _
  case holdTimerExpiry u =>
    intro s h
    unfold holdExpiry
    split
    · exact h
    · split
      · exact h
      · exact ((h.clockTo _).retire u _).finishEvent
  case pauseEnd => exact fun s h => h.pauseEnd
  case engineChoice => exact fun s h => h.engineChoice

theorem crashInvariant_afterReset (p : Power) (c : ResetCause) (s : State) : crashInvariant (afterReset p c s) := by
  refine (crashInvariant_iff _).2 ⟨fun _ => rfl, fun a => ?_, fun d => ?_⟩
  · rw [afterReset_latch]
    exact ⟨⟨fun d driven => (nomatch driven), fun x held => (nomatch held)⟩, fun _ d driven => (nomatch driven)⟩
  · rw [afterReset_window]
    exact .empty

theorem crashInvariant.startClocks {s : State} (h : crashInvariant s) : crashInvariant (startClocks s) := by
  refine (crashInvariant_iff _).2 ⟨h.1, fun a => ?_, fun d => h.window d⟩
  have restarted : latchAt (Machine.startClocks s) a = { latchAt s a with restFrom := s.now } := by cases a <;> rfl
  rw [restarted]
  exact (h.latch a).of_channel

/-- Every command keeps the crash hold. -/
theorem exec_keepsCrashHold {c : Instr} {s t : State} (h : crashInvariant s) (e : exec c s = .next t) :
    crashInvariant t :=
  exec_keeps crashInvariant_freeOfLink (fun _ _ => owner_keepsCrashHold) (fun _ _ => event_keepsCrashHold)
    (fun p c s _ => crashInvariant_afterReset p c s) (fun _ _ h => h.of_units) (fun _ h => h.startClocks)
    (fun _ _ h => h.of_units) h e

/-- Settles O25, command by command. -/
theorem crashHoldIsKept : Obligations.CrashHoldIsKept :=
  fun _ _ h e => step_keeps (fun _ _ _ => exec_keepsCrashHold) (fun _ _ h => h.of_units) (fun _ h => h.of_units) h e

end Sys2Proof.Machine

/-! Searches and bursts: how a search is asked for and started (03, R56 to R61), what a burst gives (03, R30, R60). -/

namespace Sys2Proof.Machine

open Sys2Proof

/-! ### Asking for a search -/

section
variable (z : Zone) (p : Purpose) (l : List SearchWaiter) {s : State}

/-- A request for the zone and purpose of the search in progress joins it. -/
theorem requestSearch_joins {f : Search} (e : s.entry.search = some f) (same : f.zone = z ∧ f.purpose = p) :
    requestSearch z p l s =
      { s with entry := { s.entry with search := some { f with waiters := f.waiters ++ l } } } := by
  unfold requestSearch
  rw [e]
  exact if_pos same

theorem requestSearch_queues (other : ∀ f, s.entry.search = some f → ¬(f.zone = z ∧ f.purpose = p)) :
    requestSearch z p l s = { s with entry := { s.entry with queue := joinQueue z p l s.entry.queue } } := by
  unfold requestSearch
  cases e : s.entry.search with
  | none => rfl
  | some f => exact if_neg (other f e)

theorem joinQueue_joins {q : List SearchRequest} (waiting : ∃ r ∈ q, r.zone = z ∧ r.purpose = p) :
    joinQueue z p l q =
      q.map fun r => if r.zone = z ∧ r.purpose = p then { r with waiters := r.waiters ++ l } else r :=
  if_pos (by simpa using waiting)

theorem joinQueue_appends {q : List SearchRequest} (none : ∀ r ∈ q, ¬(r.zone = z ∧ r.purpose = p)) :
    joinQueue z p l q = q ++ [{ zone := z, purpose := p, waiters := l }] :=
  if_neg (by simpa using none)

end

/-! ### A search in progress -/

theorem searchStart_next {s : State} {q : SearchRequest} {rest : List SearchRequest} (scan : s.store.scanDone = true)
    (free : s.entry.search = none) (e : s.entry.queue = q :: rest) : searchStart s =
      { s with free := s.free + 1, entry := { s.entry with queue := rest, search := some {
          zone := q.zone, purpose := q.purpose, challenge := Config.challenge s.free, start := s.now,
          windowOpen := false, candidates := candidates s q.purpose, found := [], waiters := q.waiters } } } := by
  unfold searchStart
  rw [scan, free, e]
  rfl

theorem challengeEnd_sent {s : State} {x : Search} (e : s.entry.search = some x) (shut : x.windowOpen = false) :
    challengeEnd s = { s with
      now := max s.now (x.start + ms 8), entry := { s.entry with search := some { x with windowOpen := true } } } := by
  unfold challengeEnd
  rw [e]
  exact if_neg (by simp [shut])

theorem enrollExpiry_open {s : State} {w : EnrollWindow} (e : s.keys.window = some w) :
    enrollExpiry s = { s with now := max s.now w.expiry, keys := { s.keys with window := none } } := by
  unfold enrollExpiry
  rw [e]
  rfl

/-- Settles O32: a request joins the search or the queue entry of its zone and purpose, and the front of the queue
starts with its candidates fixed. -/
theorem searchesStartAndOpenTheirWindow : Obligations.SearchesStartAndOpenTheirWindow := by
  have opens : ∀ s : State, Serving s →
      exec .enrollOpen s = .next (requestSearch .interior .enroll [.link] (taken 0 s)) :=
    fun s serves => hostRequest_ready serves
  refine ⟨?_, ⟨opens, ?_⟩, ?_, ?_, ?_⟩
  · intro s serves free empty
    refine ⟨_, opens s serves, by simp, by simp, ?_⟩
    rw [requestSearch_queues _ _ _ (by simp [free])]
    simp [empty, joinQueue, free]
  · intro z p l s
    refine ⟨fun f e zone purpose => requestSearch_joins z p l e ⟨zone, purpose⟩, fun other => ⟨?_, ?_⟩⟩
    · intro waiting
      rw [requestSearch_queues z p l other, joinQueue_joins z p l waiting]
    · intro none
      rw [requestSearch_queues z p l other, joinQueue_appends z p l none]
  · intro q rest s power scan free e
    exact ⟨_, _, (event_running _ power).trans (congrArg _ (searchStart_next scan free e)),
      rfl, rfl, rfl, rfl, rfl, rfl, rfl, rfl⟩
  · intro x s power e shut
    exact (event_running _ power).trans (congrArg _ (challengeEnd_sent e shut))
  · intro w s power e
    exact (event_running _ power).trans (congrArg _ (enrollExpiry_open e))

/-! ### A burst received -/

theorem rfArrival_malformed {b : List Byte} (s : State) (e : readBurst b = .malformed) :
    rfArrival b s = wake .rf s := by
  unfold rfArrival
  rw [e]

theorem rfArrival_command {b : List Byte} {f : CommandFrame} (s : State) (e : readBurst b = .command f) :
    rfArrival b s = offerFrame f (wake .rf s) := by
  unfold rfArrival
  rw [e]

theorem rfArrival_response {b : List Byte} {y r : BitVec 32} (s : State) (e : readBurst b = .response y r) :
    rfArrival b s = takeResponse y r (wake .rf s) := by
  unfold rfArrival
  rw [e]

/-- The slots a response adds to those a search has found. -/
def responders (y r : BitVec 32) (x : Search) : List (Fin 8) :=
  ((x.candidates.filter (responseCorrect x y r)).map Candidate.slot).filter fun i => !x.found.contains i

theorem mem_responders {y r : BitVec 32} {x : Search} {i : Fin 8} : i ∈ x.found ++ responders y r x ↔
    i ∈ x.found ∨ ∃ c ∈ x.candidates, c.slot = i ∧ c.identity = y ∧
      Config.responseOf c.secret c.identity x.challenge = r := by
  simp only [responders, List.mem_append, List.mem_filter, List.mem_map, responseCorrect, Bool.and_eq_true,
    decide_eq_true_eq, Bool.not_eq_true', List.contains_eq_mem, decide_eq_false_iff_not]
  constructor
  · rintro (found | ⟨⟨c, ⟨mem, right⟩, rfl⟩, _⟩)
    · exact .inl found
    · exact .inr ⟨c, mem, rfl, right⟩
  · rintro (found | ⟨c, mem, rfl, right⟩)
    · exact .inl found
    · exact (Classical.em (c.slot ∈ x.found)).imp id fun fresh => ⟨⟨c, ⟨mem, right⟩, rfl⟩, fresh⟩

theorem takeResponse_open {y r : BitVec 32} {x : Search} {s : State} (e : s.entry.search = some x)
    (opened : x.windowOpen = true) : takeResponse y r s =
      { s with entry := { s.entry with search := some { x with found := x.found ++ responders y r x } } } := by
  unfold takeResponse
  rw [e]
  exact if_pos opened

theorem takeResponse_shut {y r : BitVec 32} {s : State}
    (shut : ∀ x, s.entry.search = some x → x.windowOpen = false) : takeResponse y r s = s := by
  unfold takeResponse
  split
  · rfl
  · next x e => exact if_neg (by simp [shut x e])

/-- Settles O31: a command frame queues while there is room, a response counts in an open window only. -/
theorem burstsAreSorted : Obligations.BurstsAreSorted := by
  refine ⟨?_, ?_⟩
  · intro b s power
    have runs : exec (.rfFrameArrival b) s = .next (rfArrival b s) := event_running _ power
    refine ⟨fun e => runs.trans (congrArg _ (rfArrival_malformed s e)), fun f e => ⟨?_, ?_⟩⟩
    · intro room
      rw [runs, rfArrival_command s e, offerFrame, if_pos (by simpa using room)]
      simp
    · intro full
      rw [runs, rfArrival_command s e, offerFrame, if_neg (by rw [wake_entry]; omega)]
  · intro b y r s power e
    have runs : exec (.rfFrameArrival b) s = .next (takeResponse y r (wake .rf s)) :=
      (event_running _ power).trans (congrArg _ (rfArrival_response s e))
    refine ⟨fun x searching opened => ⟨responders y r x, ?_, fun i => mem_responders⟩, fun shut => ?_⟩
    · rw [runs, takeResponse_open (by simpa using searching) opened]
      simp
    · rw [runs, takeResponse_shut (by simpa using shut)]

end Sys2Proof.Machine

/-! Frames judged (02, R22 to R29) and the results of searches delivered (03, R62 to R66). -/

namespace Sys2Proof.Machine

open Sys2Proof

/-! ### A frame and the record it matches -/

section
variable {k : KeyRecord} {f : StampedFrame}

theorem verdict_suspended (h : k.stored.state = .suspended) : verdict k f = .reject .suspended := if_pos h

theorem verdict_check (active : k.stored.state = .active)
    (wrong : Config.frameCheck k.stored.secret f.frame.identity f.frame.counter
      (BitVec.ofNat 3 (fobCommandCode f.frame.command)) ≠ f.frame.check) : verdict k f = .reject .check := by
  have notSuspended : k.stored.state ≠ .suspended := by simp [active]
  unfold verdict
  rw [if_neg notSuspended, if_pos wrong]

theorem counter_sub_eq_one {f c : BitVec 24} : f - c = 1 ↔ (f.toNat + 16777216 - c.toNat) % 16777216 = 1 := by
  rw [← toNat_counter_sub, ← BitVec.toNat_inj]
  rfl

theorem resyncConfirmed_iff : resyncConfirmed k f = true ↔ ∃ fp tp, k.resync = some (fp, tp) ∧
    (f.frame.counter.toNat + 16777216 - fp.toNat) % 16777216 = 1 ∧ f.arrival ≤ tp + ms 3000 := by
  unfold resyncConfirmed
  cases k.resync with
  | none => simp
  | some p =>
    obtain ⟨fp, tp⟩ := p
    simp only [Bool.and_eq_true, decide_eq_true_eq, Option.some.injEq, Prod.mk.injEq, counter_sub_eq_one,
      Times.resyncTime, Nat.sub_le_iff_le_add, Nat.add_comm (ms 3000)]
    exact ⟨fun h => ⟨fp, tp, ⟨rfl, rfl⟩, h⟩, by rintro ⟨_, _, ⟨rfl, rfl⟩, h⟩; exact h⟩

end

/-! ### A frame taken -/

/-- The part as it stands when the front frame of the queue is judged. -/
def frameTaken (rest : List StampedFrame) (s : State) : State :=
  { s with entry := { s.entry with rfQueue := rest } }

section
variable {f : StampedFrame} {i : Fin 8} {s : State}

theorem frameTake_next {rest : List StampedFrame} (scan : s.store.scanDone = true) (free : s.entry.processing = none)
    (e : s.entry.rfQueue = f :: rest) :
    frameTake s = judge f (frameTaken rest s) := by
  unfold frameTake
  rw [scan, free, e]
  rfl

theorem judge_unknown (e : findIdentity s f.frame.identity = none) : judge f s = setProcessing none s := by
  unfold judge
  rw [e]

theorem judge_waiting (e : findIdentity s f.frame.identity = some i) (marked : (keyAt s i).marker = .linkChange) :
    judge f s = setProcessing (some { stamped := f, stage := .atMatch i }) s := by
  unfold judge
  rw [e]
  exact if_pos marked

theorem judge_rejected {r : RejectReason} (e : findIdentity s f.frame.identity = some i)
    (free : (keyAt s i).marker ≠ .linkChange) (v : verdict (keyAt s i) f = .reject r) :
    judge f s = reject i f r s := by
  unfold judge
  simp only [e, if_neg free, v]

theorem judge_accepted (e : findIdentity s f.frame.identity = some i) (free : (keyAt s i).marker ≠ .linkChange)
    (v : verdict (keyAt s i) f = .accept) : judge f s = setProcessing (some { stamped := f, stage := .accepted i })
      (acceptCounter i f.frame.counter f.frame.batteryLow s) := by
  unfold judge
  simp only [e, if_neg free, v]

/-- What a rejection leaves in the record. -/
theorem keyAt_reject (r : RejectReason) : keyAt (reject i f r s) i = { keyAt s i with
    rejects := min 255 ((keyAt s i).rejects + 1)
    resync := if r = .resyncPending then some (f.frame.counter, f.arrival) else (keyAt s i).resync } := by
  refine (keyAt_setKey_same i _ s).trans ?_
  split <;> rfl

end

/-- Settles O30: a frame that matches no record is dropped; a match waits for a change of the record in progress, and is
otherwise rejected or has its counter stored. -/
theorem framesAreTakenAndJudged : Obligations.FramesAreTakenAndJudged := by
  refine ⟨fun k f => ⟨verdict_suspended, verdict_check, resyncConfirmed_iff⟩, ?_⟩
  intro f rest s power scan free e
  have runs : exec .frameTake s = .next (judge f (frameTaken rest s)) :=
    (event_running _ power).trans (congrArg _ (frameTake_next scan free e))
  refine ⟨fun unknown => ?_, fun i found marked => ?_, fun i found unmarked => ⟨fun r v => ?_, fun v => ?_⟩⟩
  · rw [runs, judge_unknown (s := frameTaken rest s) unknown]
    simp [setProcessing, frameTaken, free]
  · exact runs.trans (congrArg _ (judge_waiting found marked))
  · refine ⟨_, runs.trans (congrArg _ (judge_rejected found unmarked v)), ?_⟩
    rw [keyAt_reject]
    exact ⟨rfl, rfl, rfl, raised_raise .keyReject _, rfl, rfl, rfl, rfl, rfl⟩
  · refine ⟨_, runs.trans (congrArg _ (judge_accepted found unmarked v)), ?_⟩
    exact ⟨keyAt_setKey_same i _ _, rfl, rfl, rfl, offer_queued _ _ _ _ (List.mem_singleton.2 rfl)⟩

/-! ### A search completed -/

/-- A search as it stands when its result is delivered. -/
def searchEnded (x : Search) (s : State) : State :=
  { s with now := max s.now (x.start + ms 48), entry := { s.entry with search := none } }

section
variable {x : Search} {s : State}

theorem searchComplete_enroll (e : s.entry.search = some x) (opened : x.windowOpen = true)
    (p : x.purpose = .enroll) : searchComplete s = enrollResult x.found (searchEnded x s) := by
  unfold searchComplete
  simp only [e, opened, p]
  rfl

theorem searchComplete_inside (e : s.entry.search = some x) (opened : x.windowOpen = true)
    (p : x.purpose = .insideCheck) : searchComplete s =
      finishEvent (x.waiters.foldl (insideResult (!x.found.isEmpty)) (searchEnded x s)) := by
  unfold searchComplete
  simp only [e, opened, p]
  rfl

theorem searchComplete_passive {u : Trigger} {c : AccessCommand} (e : s.entry.search = some x)
    (opened : x.windowOpen = true) (p : passiveOf x.purpose = some (u, c)) :
    searchComplete s = finishEvent (passiveResult x u c (searchEnded x s)) := by
  unfold searchComplete
  simp only [e, opened, p]
  rfl

/-! ### Enrollment's result -/

/-- The lowest slot of some kind is the first one found. -/
theorem find_allSlots {p : Fin 8 → Bool} {i : Fin 8} (here : p i = true) (lowest : ∀ j, p j = true → i ≤ j) :
    allSlots.find? p = some i := by
  have ordered : allSlots.Pairwise (· < ·) := by decide
  have all : ∀ j, j ∈ allSlots := by decide
  obtain ⟨j, found⟩ := Option.isSome_iff_exists.1 (List.find?_isSome.2 ⟨i, all i, here⟩)
  obtain ⟨holds, before, after, split, none⟩ := List.find?_eq_some_iff_append.1 found
  have le := lowest j holds
  rw [split] at ordered
  have mem : i ∈ before ++ j :: after := split ▸ all i
  obtain mem | rfl | mem : i ∈ before ∨ i = j ∨ i ∈ after := by simpa using mem
  · exact absurd here (by simpa using none i mem)
  · exact found
  · exact absurd ((List.pairwise_cons.1 (List.pairwise_append.1 ordered).2.1).1 i mem) (Nat.not_lt.2 le)

theorem enrollResult_opened {found : List (Fin 8)} {i : Fin 8} (mem : i ∈ found)
    (master : activeMaster (keyAt s i).stored = true)
    (lowest : ∀ j ∈ found, activeMaster (keyAt s j).stored = true → i ≤ j) : enrollResult found s =
      replyResult .opened [byte i.val]
        { s with keys := { s.keys with window := some { expiry := s.now + ms 30000, slot := i } } } := by
  unfold enrollResult
  rw [find_allSlots (i := i) (by simp [mem, master]) (fun j h => by
    obtain ⟨mem, master⟩ : j ∈ found ∧ activeMaster (keyAt s j).stored = true := by simpa using h
    exact lowest j mem master)]
  rfl

theorem enrollResult_noMaster {found : List (Fin 8)}
    (none : ∀ i ∈ found, activeMaster (keyAt s i).stored = false) :
    enrollResult found s = replyResult .noMaster [] s := by
  have absent : allSlots.find? (fun i => found.contains i && activeMaster (keyAt s i).stored) = .none :=
    List.find?_eq_none.2 fun i _ => by
      simpa using none i
  unfold enrollResult
  rw [absent]

/-! ### A passive search's result -/

theorem passiveResult_none {u : Trigger} {c : AccessCommand} (none : ∀ k ∈ x.candidates, k.slot ∉ x.found) :
    passiveResult x u c s = s := by
  have absent : x.candidates.find? (fun k => x.found.contains k.slot) = .none :=
    List.find?_eq_none.2 fun k mem => by simpa using none k mem
  unfold passiveResult
  rw [absent]

theorem passiveResult_first {u : Trigger} {c : AccessCommand} {before after : List Candidate} {k : Candidate}
    (split : x.candidates = before ++ k :: after) (mem : k.slot ∈ x.found) (first : ∀ j ∈ before, j.slot ∉ x.found) :
    passiveResult x u c s =
      let r := fire { trigger := u,
                      carried := { origin := searchOrigin x.zone, role := k.role, slot := some k.slot,
                                   profile := some k.profile },
                      holdMark := false, request := none } s
      writeAccess k.slot c (resultOfAnswer r.2) r.1 := by
  have found : x.candidates.find? (fun k => x.found.contains k.slot) = some k :=
    List.find?_eq_some_iff_append.2
      ⟨by simpa using mem, before, after, split, fun j h => by simpa using first j h⟩
  unfold passiveResult
  rw [found]

end

/-! ### The inside check's result -/

section
variable {found : Bool} {t : Trigger} {r : Run}

theorem insideResult_only_engine (found : Bool) (s : State) (w : SearchWaiter) :
    insideResult found s w = { s with engine := (insideResult found s w).engine } := by
  unfold insideResult
  split
  · rfl
  · split
    · rfl
    · split
      · rfl
      · rfl

theorem foldl_insideResult_only_engine (found : Bool) (l : List SearchWaiter) (s : State) :
    l.foldl (insideResult found) s = { s with engine := (l.foldl (insideResult found) s).engine } := by
  induction l generalizing s with
  | nil => rfl
  | cons w l ih =>
    rw [List.foldl_cons, ih, insideResult_only_engine]

/-- One waiter's turn: a run's own turn gives it its result, and nothing else touches it. -/
theorem runAt_insideResult (s : State) (w : SearchWaiter) (e : runAt s t = some r) :
    runAt (insideResult found s w) t = some
      (if w = .run t r.serial ∧ r.searchWait = true then { r with searchWait := false, searchResult := some found }
        else r) := by
  unfold insideResult
  cases w with
  | link => simpa using e
  | run u serial =>
    by_cases other : u = t
    · subst other
      simp only [e, SearchWaiter.run.injEq, true_and, eq_comm (a := serial)]
      split
      · rw [runAt_setRun_same]
      · exact e
    · rw [if_neg (by simp [other])]
      dsimp only
      split
      · exact e
      · split
        · rw [runAt_setRun, if_neg other, e]
        · exact e

theorem runAt_foldl_insideResult_idle (idle : r.searchWait = false) (l : List SearchWaiter) (s : State)
    (e : runAt s t = some r) : runAt (l.foldl (insideResult found) s) t = some r := by
  induction l generalizing s with
  | nil => exact e
  | cons w l ih => exact ih _ (by rw [runAt_insideResult s w e, if_neg (by simp [idle])])

theorem runAt_foldl_insideResult_waiting (waiting : r.searchWait = true) (l : List SearchWaiter) (s : State)
    (e : runAt s t = some r) (mem : SearchWaiter.run t r.serial ∈ l) :
    runAt (l.foldl (insideResult found) s) t = some { r with searchWait := false, searchResult := some found } := by
  induction l generalizing s with
  | nil => cases mem
  | cons w l ih =>
    have turn := runAt_insideResult (found := found) s w e
    by_cases mine : w = .run t r.serial
    · rw [if_pos ⟨mine, waiting⟩] at turn
      exact runAt_foldl_insideResult_idle rfl l _ turn
    · rw [if_neg (by simp [mine])] at turn
      exact ih _ turn ((List.mem_cons.1 mem).resolve_left fun h => mine h.symm)

end

/-- Settles O33: enrollment opens its window for the lowest ACTIVE master found, a passive search fires its trigger for
the first candidate found, and the inside check tells the runs that wait for it. -/
theorem searchesDeliverTheirResult : Obligations.SearchesDeliverTheirResult := by
  have runs : ∀ {s : State}, s.power = .running → exec .searchComplete s = .next (searchComplete s) :=
    fun power => event_running _ power
  refine ⟨?_, ?_, ?_⟩
  · intro x s power e opened p
    have completes := (runs power).trans (congrArg _ (searchComplete_enroll e opened p))
    refine ⟨fun i mem master lowest => ?_, fun none => ?_⟩
    · refine ⟨_, completes.trans (congrArg _ (enrollResult_opened mem master fun j h => lowest j h)), ?_⟩
      exact ⟨rfl, rfl, by simp [replyResult, searchEnded, resultCode, byte]⟩
    · refine ⟨_, completes.trans (congrArg _ (enrollResult_noMaster none)), ?_⟩
      exact ⟨rfl, rfl, by simp [replyResult, searchEnded, resultCode, byte]⟩
  · intro x u c s power e opened p
    have completes := (runs power).trans (congrArg _ (searchComplete_passive e opened p))
    refine ⟨fun none => ?_, fun before k after split mem first => ?_⟩
    · rw [completes, passiveResult_none none]
      rfl
    · rw [completes, passiveResult_first split mem first]
      rfl
  · intro x s power e opened p
    refine ⟨_, (runs power).trans (congrArg _ (searchComplete_inside e opened p)), ?_, ?_, ?_, ?_⟩
    · rw [foldl_insideResult_only_engine]
      rfl
    · rw [foldl_insideResult_only_engine]
      rfl
    · exact fun t r e waiting mem => runAt_foldl_insideResult_waiting waiting _ _ e mem
    · exact fun t r e idle => runAt_foldl_insideResult_idle idle _ _ e

end Sys2Proof.Machine

/-! The Chain Engine's invariant (07, R141): at most one run ACTIVE, and none waiting with a higher priority. What the
engine's own operations do to it, and that an event's end leaves nothing for the engine to do. -/

namespace Sys2Proof.Machine

open Sys2Proof

/-! ### Runs that come from earlier runs -/

/-- Every run that is not FAULTED stands as it did in its state and its priority; others may have ended. -/
def RunsFrom (s t : State) : Prop :=
  ∀ u x, runAt t u = some x → x.state ≠ .faulted → ∃ r, runAt s u = some r ∧ r.state = x.state ∧ r.priority = x.priority

theorem RunsFrom.refl (s : State) : RunsFrom s s := fun _ x h _ => ⟨x, h, rfl, rfl⟩

theorem RunsFrom.trans {s t v : State} (h : RunsFrom s t) (k : RunsFrom t v) : RunsFrom s v := by
  intro u x e live
  obtain ⟨y, ey, sy, py⟩ := k u x e live
  obtain ⟨r, er, sr, pr⟩ := h u y ey (sy ▸ live)
  exact ⟨r, er, sr.trans sy, pr.trans py⟩

theorem RunsFrom.of_runs {s t : State} (h : t.engine.runs = s.engine.runs) : RunsFrom s t :=
  fun u x e _ => ⟨x, by simpa only [runAt, h] using e, rfl, rfl⟩

theorem RunsFrom.of_engine {s t : State} (h : t.engine = s.engine) : RunsFrom s t := .of_runs (by rw [h])

theorem RunsFrom.foldl {α : Type} {f : State → α → State} (h : ∀ s x, RunsFrom s (f s x)) (l : List α) (s : State) :
    RunsFrom s (l.foldl f s) := by
  induction l generalizing s with
  | nil => exact .refl s
  | cons x l ih => exact (h s x).trans (ih _)

/-- A run written over with the same state and priority. -/
theorem RunsFrom.setRun {t : Trigger} {r x : Run} {s : State} (h : runAt s t = some r) (k : x.state = r.state)
    (p : x.priority = r.priority) : RunsFrom s (Machine.setRun t (some x) s) := by
  intro u y e live
  rw [runAt_setRun] at e
  split at e
  · next same => cases e; exact ⟨r, same ▸ h, k.symm, p.symm⟩
  · exact ⟨y, e, rfl, rfl⟩

theorem RunsFrom.setRun_faulted {t : Trigger} {x : Run} {s : State} (k : x.state = .faulted) :
    RunsFrom s (Machine.setRun t (some x) s) := by
  intro u y e live
  rw [runAt_setRun] at e
  split at e
  · cases e; exact absurd k live
  · exact ⟨y, e, rfl, rfl⟩

theorem RunsFrom.setRun_none (t : Trigger) (s : State) : RunsFrom s (Machine.setRun t none s) := by
  intro u y e _
  rw [runAt_setRun] at e
  split at e
  · cases e
  · exact ⟨y, e, rfl, rfl⟩

/-! ### The invariant -/

theorem waits_iff {r : Run} : waits r = true ↔ r.state = .ready ∨ r.state = .suspended := by simp [waits]

theorem engineInvariant.from {s t : State} (h : engineInvariant s) (k : RunsFrom s t) : engineInvariant t := by
  have active : ∀ {x : Run}, x.state = .active → x.state ≠ .faulted := fun a => by simp [a]
  have waiting : ∀ {x : Run}, waits x = true → x.state ≠ .faulted := fun w => by
    obtain a | a := waits_iff.1 w <;> simp [a]
  constructor
  · intro u v r x er ex ar ax
    obtain ⟨r', er', sr, _⟩ := k u r er (active ar)
    obtain ⟨x', ex', sx, _⟩ := k v x ex (active ax)
    exact h.1 u v r' x' er' ex' (sr.trans ar) (sx.trans ax)
  · intro u v r x er ex ar wx
    obtain ⟨r', er', sr, pr⟩ := k u r er (active ar)
    obtain ⟨x', ex', sx, px⟩ := k v x ex (waiting wx)
    have wx' : waits x' = true := by rw [waits, sx]; exact wx
    exact px ▸ pr ▸ h.2 u v r' x' er' ex' (sr.trans ar) wx'

theorem engineInvariant.of_runs {s t : State} (h : engineInvariant s) (k : t.engine.runs = s.engine.runs) :
    engineInvariant t := h.from (.of_runs k)

/-- With no run ACTIVE there is nothing to keep. -/
theorem engineInvariant.of_none {s : State} (h : activeTrigger s = none) : engineInvariant s :=
  ⟨oneActive_of_none h, fun t _ r _ e _ a _ => absurd a (activeTrigger_none.1 h t r e)⟩

/-! ### The engine's own operations -/

theorem recordNotice_from (s : State) (n : Notice) : RunsFrom s (recordNotice s n) := by
  unfold recordNotice
  split
  · exact .refl s
  · next r h =>
    split
    · exact .setRun h rfl rfl
    · exact .refl s

theorem deliver_from (s : State) : RunsFrom s (deliver s) :=
  RunsFrom.trans (t := { s with mail := [] }) (.of_engine rfl) (.foldl recordNotice_from _ _)

theorem engineOutcome_from (t : Trigger) (a : Aperture) (o : OpOutcome) (s : State) :
    RunsFrom s (engineOutcome t a o s) := by
  unfold engineOutcome
  split
  · next r h =>
    split
    · exact .setRun h rfl rfl
    · exact .refl s
  · exact .refl s

theorem skipMet_from (t : Trigger) (st : Step) (s : State) : RunsFrom s (skipMet t st s) := by
  unfold skipMet
  split
  · refine .foldl (fun x a => ?_) _ _
    split
    · exact engineOutcome_from _ _ _ _
    · exact .refl x
  · exact .refl s

theorem issueAperture_from (t : Trigger) (g : Tag) (st : Step) (s : State) (a : Aperture) :
    RunsFrom s (issueAperture t g st s a) := by
  unfold issueAperture
  split
  · exact .refl s
  · split
    · exact .refl s
    · have issued : RunsFrom s (deliver (discardOwn t g a (issueOne t g st a s))) :=
        RunsFrom.trans (.of_engine (issueOne_engine t g st a s)) (.trans (.of_engine rfl) (deliver_from _))
      dsimp only
      split
      · exact issued.trans (engineOutcome_from _ _ _ _)
      · exact issued

theorem issueStep_from (t : Trigger) (st : Step) (s : State) : RunsFrom s (issueStep t st s) := by
  unfold issueStep
  split
  · exact .refl s
  · exact (skipMet_from _ _ _).trans (.foldl (fun x a => issueAperture_from _ _ _ x a) _ _)

theorem park_from (t : Trigger) (r : Run) (f : FaultKind × Option Aperture) (s : State) : RunsFrom s (park t r f s) :=
  RunsFrom.setRun_faulted (s := s) (t := t) (x := { r with state := .faulted, fault := some f, hold := none }) rfl

theorem resume_from {t : Trigger} {r : Run} {s : State} (st : Step) (h : runAt s t = some r) :
    RunsFrom s (resume t r st s) := by
  unfold resume
  split
  · exact park_from _ _ _ _
  · split
    · exact .setRun h rfl rfl
    · exact .refl s
    · split
      · exact .refl s
      · exact issueStep_from _ _ _

/-- An activation makes the run ACTIVE; what it goes on to do changes no other run's standing. -/
theorem activate_from {t : Trigger} {r : Run} {s : State} (h : runAt s t = some r) :
    RunsFrom (setRun t (some { r with state := .active }) s) (activate t s) := by
  unfold activate
  rw [h]
  dsimp only
  split
  · exact resume_from _ (runAt_setRun_same _ _ _)
  · exact .refl _

theorem retire_from (t : Trigger) (o : RunOutcome) (s : State) : RunsFrom s (retire t o s) := by
  intro u x e live
  rw [runAt_retire] at e
  split at e
  · cases e
  · exact ⟨x, e, rfl, rfl⟩

theorem cancelTrigger_from (s : State) (t : Trigger) : RunsFrom s (cancelTrigger s t) := retire_from _ _ _

theorem setRefire_runs (t : Trigger) (c : Option Carried) (s : State) :
    (setRefire t c s).engine.runs = s.engine.runs := rfl

theorem crashSweep_from (s : State) : RunsFrom s (crashSweep s) := by
  have swept := RunsFrom.foldl (f := fun s u => setRefire u none (cancelTrigger s u))
    (fun s u => (cancelTrigger_from s u).trans (.of_runs (setRefire_runs u none _)))
    (allTriggers.filter fun u => u ≠ .crash) s
  unfold crashSweep
  dsimp only
  generalize (allTriggers.filter fun u => u ≠ .crash).foldl _ s = x at swept ⊢
  exact swept.trans (.of_runs rfl)

/-! ### Preemption (07, R141) -/

/-- The invariant, but for what one trigger's waiting run asks. -/
def engineInvariantBut (t : Trigger) (s : State) : Prop :=
  oneActive s ∧ ∀ u v r x, v ≠ t → runAt s u = some r → runAt s v = some x → r.state = .active → waits x = true →
    x.priority ≤ r.priority

theorem engineInvariantBut.from {t : Trigger} {s y : State} (h : engineInvariant s)
    (k : ∀ u x, u ≠ t → runAt y u = some x → x.state ≠ .faulted →
      ∃ r, runAt s u = some r ∧ r.state = x.state ∧ r.priority = x.priority)
    (new : ∀ r, runAt y t = some r → r.state ≠ .active) : engineInvariantBut t y := by
  have active : ∀ {x : Run}, x.state = .active → x.state ≠ .faulted := fun a => by simp [a]
  have waiting : ∀ {x : Run}, waits x = true → x.state ≠ .faulted := fun w => by
    obtain a | a := waits_iff.1 w <;> simp [a]
  have other : ∀ {u r}, runAt y u = some r → r.state = .active → u ≠ t := by
    rintro u r e a rfl
    exact new r e a
  constructor
  · intro u v r x er ex ar ax
    obtain ⟨r', er', sr, _⟩ := k u r (other er ar) er (active ar)
    obtain ⟨x', ex', sx, _⟩ := k v x (other ex ax) ex (active ax)
    exact h.1 u v r' x' er' ex' (sr.trans ar) (sx.trans ax)
  · intro u v r x nv er ex ar wx
    obtain ⟨r', er', sr, pr⟩ := k u r (other er ar) er (active ar)
    obtain ⟨x', ex', sx, px⟩ := k v x nv ex (waiting wx)
    have wx' : waits x' = true := by rw [waits, sx]; exact wx
    exact px ▸ pr ▸ h.2 u v r' x' er' ex' (sr.trans ar) wx'

/-- The only run made ACTIVE, with the highest priority of those that wait. -/
theorem engineInvariant_setActive {t : Trigger} {r : Run} {s : State}
    (none : ∀ u x, u ≠ t → runAt s u = some x → x.state ≠ .active)
    (most : ∀ u x, u ≠ t → runAt s u = some x → waits x = true → x.priority ≤ r.priority) :
    engineInvariant (setRun t (some { r with state := .active }) s) := by
  have mine : ∀ {u x}, runAt (setRun t (some { r with state := .active }) s) u = some x → x.state = .active → u = t := by
    intro u x e a
    rw [runAt_setRun] at e
    split at e
    · next same => exact same.symm
    · next other => exact absurd a (none u x (Ne.symm other) e)
  constructor
  · exact fun u v r x er ex ar ax => (mine er ar).trans (mine ex ax).symm
  · intro u v p x ep ex ap wx
    obtain rfl := mine ep ap
    rw [runAt_setRun_same] at ep
    cases ep
    rw [runAt_setRun] at ex
    split at ex
    · cases ex; simp [waits] at wx
    · next other => exact most v x (Ne.symm other) ex wx

theorem engineInvariant.activate {t : Trigger} {r : Run} {s : State} (e : runAt s t = some r)
    (none : ∀ u x, u ≠ t → runAt s u = some x → x.state ≠ .active)
    (most : ∀ u x, u ≠ t → runAt s u = some x → waits x = true → x.priority ≤ r.priority) :
    engineInvariant (Machine.activate t s) := (engineInvariant_setActive none most).from (activate_from e)

theorem runAt_suspend {u : Trigger} {x : Run} {s : State} (e : runAt s u = some x) (v : Trigger) :
    ∃ z : Run, z.state = .suspended ∧ z.priority = x.priority ∧
      runAt (suspend u s) v = if u = v then some z else runAt s v := by
  unfold suspend
  simp only [e]
  refine ⟨_, ?_, ?_, runAt_setRun _ _ _ _⟩ <;> rfl

/-- The fresh run takes over exactly when its priority is the higher. -/
theorem engineInvariantBut.preempt {t : Trigger} {r : Run} {s : State} (h : engineInvariantBut t s)
    (e : runAt s t = some r) (w : r.state ≠ .active) : engineInvariant (preempt t s) := by
  cases a : activeTrigger s with
  | none => rw [preempt_none t a]; exact .of_none a
  | some u =>
    obtain ⟨x, ex, ax⟩ := activeTrigger_some a
    have other : u ≠ t := by
      rintro rfl
      exact w (Option.some.inj (e.symm.trans ex) ▸ ax)
    unfold Machine.preempt
    rw [a, e]
    dsimp only
    rw [ex]
    dsimp only
    split
    · next higher =>
      have stands : runAt (suspend u s) t = some r := by
        obtain ⟨z, _, _, ez⟩ := runAt_suspend ex t
        rw [ez, if_neg other, e]
      refine engineInvariant.activate stands (fun v y nv ey ay => ?_) fun v y nv ey wy => ?_
      · obtain ⟨z, sz, _, ez⟩ := runAt_suspend ex v
        rw [ez] at ey
        split at ey
        · cases ey; simp [sz] at ay
        · next apart => exact apart (h.1 u v x y ex ey ax ay)
      · obtain ⟨z, sz, pz, ez⟩ := runAt_suspend ex v
        rw [ez] at ey
        split at ey
        · cases ey; exact pz ▸ Nat.le_of_lt higher
        · exact Nat.le_trans (h.2 u v x y nv ex ey ax wy) (Nat.le_of_lt higher)
    · next lower =>
      refine ⟨h.1, fun p v q y ep ev ap wy => ?_⟩
      obtain rfl := h.1 p u q x ep ex ap ax
      obtain rfl := Option.some.inj (ep.symm.trans ex)
      by_cases nv : v = t
      · subst nv
        obtain rfl := Option.some.inj (ev.symm.trans e)
        exact Nat.not_lt.1 lower
      · exact h.2 p v q y nv ep ev ap wy

/-! ### Firings -/

section
variable {s : State} (h : engineInvariant s)
include h

theorem engineInvariant.takeFiring (f : Firing) (i : Fin 64) : engineInvariant (takeFiring f i s) := by
  rw [takeFiring_eq]
  have stands := runAt_fresh_cancelled f i s
  refine engineInvariantBut.preempt (engineInvariantBut.from h (fun u x nu e live => ?_) fun r e => ?_) stands (by nofun)
  · change runAt ((cancelled f.trigger s).foldl cancelTrigger (fresh f i s)) u = some x at e
    obtain ⟨r, er, sr, pr⟩ := RunsFrom.foldl cancelTrigger_from (cancelled f.trigger s) (fresh f i s) u x e live
    refine ⟨r, ?_, sr, pr⟩
    change runAt (setRun f.trigger (some (newRun s f i)) s) u = some r at er
    rwa [runAt_setRun, if_neg (Ne.symm nu)] at er
  · cases e.symm.trans stands
    nofun

theorem engineInvariant.decideFiring (f : Firing) : engineInvariant (decideFiring f s).1 := by
  have held : ∀ {r : Run}, runAt s f.trigger = some r →
      engineInvariant (setRun f.trigger (some { r with hold := some (s.now + Times.holdTime) }) s) :=
    fun e => h.from (.setRun e rfl rfl)
  unfold Machine.decideFiring
  dsimp only
  split
  · exact h
  · split
    · exact h.takeFiring f _
    · next r e =>
      split
      · exact h.of_runs rfl
      · split
        · exact held e
        · exact h
      · split
        · exact held e
        · exact h.of_runs rfl

theorem engineInvariant.fire (f : Firing) : engineInvariant (fire f s).1 := by
  unfold Machine.fire
  split
  · exact engineInvariant.decideFiring (h.from (crashSweep_from s)) f
  · exact h.decideFiring f

/-- A parked run retried waits again, and takes over if it may. -/
theorem engineInvariant.retryRun (t : Trigger) (r : Run) : engineInvariant (retryRun t r s) := by
  unfold Machine.retryRun
  dsimp only
  refine engineInvariantBut.preempt (engineInvariantBut.from h (fun u x nu eu _ => ?_) fun x ex => ?_)
    (runAt_setRun_same _ _ _) nofun
  · rw [runAt_setRun, if_neg (Ne.symm nu)] at eu
    exact ⟨x, eu, rfl, rfl⟩
  · rw [runAt_setRun_same] at ex
    cases ex
    nofun

end

/-! ### The choice of a run -/

/-- The runs looked at so far wait with no higher priority than the best. -/
def BestOf (s : State) (l : List Trigger) (best : Option (Trigger × Nat)) : Prop :=
  (∀ b, best = some b → ∃ r, runAt s b.1 = some r ∧ r.priority = b.2) ∧
  ∀ u ∈ l, ∀ x, runAt s u = some x → waits x = true → ∃ b, best = some b ∧ x.priority ≤ b.2

theorem BestOf.next {s : State} {l : List Trigger} {best : Option (Trigger × Nat)} (h : BestOf s l best) (t : Trigger) :
    BestOf s (l ++ [t]) (betterRun s best t) := by
  obtain ⟨real, most⟩ := h
  have keeps : (∀ x, runAt s t = some x → waits x = true → ∃ b, best = some b ∧ x.priority ≤ b.2) →
      BestOf s (l ++ [t]) best := by
    refine fun low => ⟨real, fun u mem x ex wx => ?_⟩
    obtain mem | mem := List.mem_append.1 mem
    · exact most u mem x ex wx
    · obtain rfl := List.mem_singleton.1 mem
      exact low x ex wx
  have takes : ∀ r, runAt s t = some r → (∀ b, best = some b → b.2 ≤ r.priority) →
      BestOf s (l ++ [t]) (some (t, r.priority)) := by
    refine fun r er high => ⟨fun b e => by cases e; exact ⟨r, er, rfl⟩, fun u mem x ex wx => ⟨_, rfl, ?_⟩⟩
    obtain mem | mem := List.mem_append.1 mem
    · obtain ⟨b, eb, le⟩ := most u mem x ex wx
      exact Nat.le_trans le (high b eb)
    · obtain rfl := List.mem_singleton.1 mem
      exact (Option.some.inj (ex.symm.trans er) ▸ Nat.le_refl _)
  unfold betterRun
  split
  · next absent => exact keeps fun x ex => nomatch absent.symm.trans ex
  · next r er =>
    split
    · split
      · exact takes r er nofun
      · next b =>
        split
        · next higher => exact takes r er fun c e => by cases e; exact Nat.le_of_lt higher
        · next lower =>
          exact keeps fun x ex _ => ⟨b, rfl, (Option.some.inj (ex.symm.trans er)) ▸ Nat.not_lt.1 lower⟩
    · next idle =>
      exact keeps fun x ex wx => absurd ((Option.some.inj (ex.symm.trans er)) ▸ wx) idle

theorem BestOf.foldl {s : State} {l : List Trigger} {best : Option (Trigger × Nat)} (h : BestOf s l best)
    (rest : List Trigger) : BestOf s (l ++ rest) (rest.foldl (betterRun s) best) := by
  induction rest generalizing l best with
  | nil => simpa using h
  | cons t rest ih => simpa using ih (h.next t)

/-- The run chosen waits with the highest priority. -/
theorem chosenRun_most {s : State} {t : Trigger} (e : chosenRun s = some t) : ∃ r, runAt s t = some r ∧
    ∀ u x, runAt s u = some x → waits x = true → x.priority ≤ r.priority := by
  have all : BestOf s allTriggers (allTriggers.foldl (betterRun s) none) :=
    BestOf.foldl (l := []) ⟨by simp, by simp⟩ allTriggers
  obtain ⟨real, most⟩ := all
  unfold chosenRun at e
  obtain ⟨b, eb, rfl⟩ := Option.map_eq_some_iff.1 e
  obtain ⟨r, er, pr⟩ := real b eb
  refine ⟨r, er, fun u x ex wx => ?_⟩
  obtain ⟨c, ec, le⟩ := most u (by cases u <;> decide) x ex wx
  cases eb.symm.trans ec
  exact pr ▸ le

theorem engineInvariant_choice {s : State} {t : Trigger} (idle : activeTrigger s = none) (e : chosenRun s = some t) :
    engineInvariant (activate t s) := by
  obtain ⟨r, er, most⟩ := chosenRun_most e
  exact .activate er (fun u x _ ex => activeTrigger_none.1 idle u x ex) fun u x _ => most u x

/-! ### The moves of the ACTIVE run -/

/-- What one move leaves: no run ACTIVE, or every run as it stood. -/
def MovedFrom (s x : State) : Prop := activeTrigger x = none ∨ RunsFrom s x

theorem MovedFrom.keeps {s x : State} (h : engineInvariant s) (m : MovedFrom s x) : engineInvariant x :=
  m.elim .of_none h.from

section
variable {s : State} {u : Trigger} {r : Run} (one : ∀ v y, v ≠ u → runAt s v = some y → y.state ≠ .active)
  (e : runAt s u = some r)
include one e

omit e in
theorem endRun_moved {y : State} (z : Run) (c : RunOutcome) (k : ∀ v, v ≠ u → runAt y v = runAt s v) :
    MovedFrom s (endRun u z c y) :=
  .inl (noneActive_endRun z c fun v q n f => one v q n (k v n ▸ f))

omit one e in
theorem runAt_setRun_other {z : Option Run} {v : Trigger} (n : v ≠ u) : runAt (setRun u z s) v = runAt s v := by
  rw [runAt_setRun, if_neg (Ne.symm n)]

theorem beginStep_moved : MovedFrom s (beginStep u r s) := by
  have begun : ∀ z : Run, z.state = r.state → z.priority = r.priority → RunsFrom s (setRun u (some z) s) :=
    fun _ same priority => .setRun e same priority
  unfold beginStep
  split
  · exact endRun_moved one _ _ fun _ _ => rfl
  · dsimp only
    split
    · unfold damagedStep
      split
      · next c => subst c; exact endRun_moved one _ _ fun _ n => runAt_setRun_other n
      · refine .inr (RunsFrom.trans (begun _ ?_ ?_) (park_from _ _ _ _)) <;> rfl
    · split
      · exact endRun_moved one _ _ fun _ n => runAt_setRun_other n
      · exact .inr (.setRun e rfl rfl)
      · refine .inr (RunsFrom.trans (begun _ ?_ ?_) (.of_engine (requestSearch_engine _ _ _ _))) <;> rfl
      · split
        · next st _ _ _ _ _ =>
          have kept : ∀ z : Run, (denyRole z).state = z.state ∧ (denyRole z).priority = z.priority := by
            intro z
            unfold denyRole
            generalize allApertures = l
            induction l generalizing z with
            | nil => exact ⟨rfl, rfl⟩
            | cons a l ih =>
              rw [List.foldl_cons, (ih _).1, (ih _).2]
              split <;> exact ⟨rfl, rfl⟩
          exact .inr (.setRun e (kept _).1 (kept _).2)
        · refine .inr (RunsFrom.trans (begun _ ?_ ?_) (issueStep_from _ _ _)) <;> rfl

theorem afterStep_moved {y : State} {z : Run} (st : Step) (k : ∀ v, v ≠ u → runAt y v = runAt s v)
    (same : z.state = r.state ∧ z.priority = r.priority) : MovedFrom s (afterStep u z st y) := by
  have notified : ∀ v, v ≠ u → runAt (if hasNotify st then raise .chainNotify y else y) v = runAt s v := by
    intro v n
    split <;> exact k v n
  unfold afterStep
  dsimp only
  split
  · exact endRun_moved one _ _ notified
  · split
    · exact endRun_moved one _ _ notified
    · split
      · exact endRun_moved one _ _ notified
      · refine .inr fun v x ex live => ?_
        rw [runAt_setRun] at ex
        split at ex
        · next mine => cases ex; exact ⟨r, mine ▸ e, same.1.symm, same.2.symm⟩
        · next other => exact ⟨x, notified v (Ne.symm other) ▸ ex, rfl, rfl⟩

theorem completeStep_moved (st : Step) : MovedFrom s (completeStep u r st s) := by
  unfold completeStep
  split
  · exact endRun_moved one _ _ fun _ _ => rfl
  · split
    · split
      · next c => subst c; exact afterStep_moved one e st (fun _ n => runAt_setRun_other n) ⟨rfl, rfl⟩
      · exact .inr (park_from _ _ _ _)
    · exact afterStep_moved one e st (fun _ _ => rfl) ⟨rfl, rfl⟩

end

theorem engineMove_movedFrom {s x : State} (o : oneActive s) (h : engineMove s = some x) : MovedFrom s x := by
  unfold engineMove at h
  split at h
  · cases h
  · next u a =>
    obtain ⟨r, e, active⟩ := activeTrigger_some a
    have one : ∀ v y, v ≠ u → runAt s v = some y → y.state ≠ .active := fun v y n k b => n (o v u y r k e b active)
    rw [e] at h
    dsimp only at h
    split at h
    · cases h; exact beginStep_moved one e
    · split at h
      · cases h; exact completeStep_moved one e _
      · cases h

/-! ### An event's end -/

theorem settle_keepsEngine (n : Nat) {s : State} (h : engineInvariant s) : engineInvariant (settle n s) := by
  induction n generalizing s with
  | zero => exact h
  | succ n ih =>
    unfold settle
    split
    · exact h
    · next x e => exact ih ((engineMove_movedFrom h.1 e).keeps h)

theorem engineInvariant.finishEvent {s : State} (h : engineInvariant s) : engineInvariant (finishEvent s) :=
  (settle_keepsEngine 140 (h.from (deliver_from s))).from (deliver_from _)

/-- How many moves the engine can still make. -/
def MovesWithin (s : State) (n : Nat) : Prop := ∀ t r, activeTrigger s = some t → runAt s t = some r → movesLeft r ≤ n

theorem engineMove_none_of_idle {s : State} (h : activeTrigger s = none) : engineMove s = none := by
  unfold engineMove
  rw [h]

theorem settle_settles (n : Nat) {s : State} (o : oneActive s) (m : s.mail = []) (w : MovesWithin s n) :
    (settle n s).mail = [] ∧ engineMove (settle n s) = none := by
  induction n generalizing s with
  | zero =>
    refine ⟨m, engineMove_none_of_idle (Classical.byContradiction fun active => ?_)⟩
    obtain ⟨t, a⟩ := Option.ne_none_iff_exists'.1 active
    obtain ⟨r, e, _⟩ := activeTrigger_some a
    have some_left : 0 < movesLeft r := by unfold movesLeft; split <;> omega
    exact absurd (w t r a e) (Nat.not_le.2 some_left)
  | succ n ih =>
    unfold settle
    split
    · next e => exact ⟨m, e⟩
    · next x e =>
      obtain ⟨mail, one, goes⟩ := engineMove_moved o m e
      refine ih one mail fun t r a er => ?_
      obtain idle | ⟨u, p, y, au, ep, ax, ey, less⟩ := goes
      · exact nomatch idle.symm.trans a
      · obtain rfl := Option.some.inj (ax.symm.trans a)
        obtain rfl := Option.some.inj (ey.symm.trans er)
        have le := w _ p au ep
        omega

/-- The end of an event leaves nothing on its way to the engine and nothing for it to do. -/
theorem settled_finishEvent {s : State} (o : oneActive s) : Settled (finishEvent s) := by
  have bound : MovesWithin (deliver s) 140 := by
    intro t r _ _
    unfold movesLeft
    split <;> omega
  obtain ⟨mail, rest⟩ := settle_settles 140 ((deliver_sameRuns s).oneActive o) (deliver_mail s) bound
  unfold finishEvent
  rw [deliver_of_empty mail]
  exact ⟨mail, rest⟩

end Sys2Proof.Machine

/-! What every command keeps of the units and the runs: a predicate of them that each unit's own work, each firing and
each event's end keeps is kept by every owner and every event. -/

namespace Sys2Proof.Machine

open Sys2Proof

-- Many short proofs of one form: elaborated in turn, they do not wait for each other in a thread each.
set_option Elab.async false

/-! ### The units' work -/

/-- The Latch and Window Units at work, no run touched. -/
structure Works (s t : State) : Prop where
  moves : Moves s t
  runs : t.engine.runs = s.engine.runs

namespace Works

theorem refl (s : State) : Works s s := ⟨.refl s, rfl⟩

theorem trans {s t u : State} (h : Works s t) (k : Works t u) : Works s u := ⟨h.1.trans k.1, k.2.trans h.2⟩

theorem of_engine {s t : State} (h : Moves s t) (k : t.engine = s.engine) : Works s t := ⟨h, by rw [k]⟩

theorem foldl {α : Type} {f : State → α → State} (h : ∀ s x, Works s (f s x)) (l : List α) (s : State) :
    Works s (l.foldl f s) := by
  induction l generalizing s with
  | nil => exact .refl s
  | cons x l ih => exact (h s x).trans (ih _)

end Works

theorem requestLatch_works (a : Aperture) (x : HeldTarget) (q : Requester) (g : List Tag) (s : State) :
    Works s (requestLatch a x q g s).1 := .of_engine (requestLatch_moves a x q g s) (requestLatch_engine a x q g s)

theorem requestRelease_works (q : Requester) (g : List Tag) (s : State) : Works s (requestRelease q g s).1 :=
  .of_engine (requestRelease_moves q g s) (requestRelease_engine q g s)

theorem seekDrive_works (a : Aperture) (x : HeldTarget) (q : Requester) (g : List Tag) (s : State) :
    Works s (seekDrive a x q g s).1 := .of_engine (seekDrive_moves a x q g s) (seekDrive_engine a x q g s)

theorem requestMovement_works (d : Door) (m : Movement) (s : State) : Works s (requestMovement d m s).1 :=
  .of_engine (requestMovement_moves d m s) (requestMovement_engine d m s)

theorem stopMovement_works (d : Door) (o : Option OpOutcome) (s : State) : Works s (stopMovement d o s) :=
  .of_engine (stopMovement_moves d o s) (stopMovement_engine d o s)

theorem removeFollowOn_works (d : Door) (o : Option OpOutcome) (s : State) : Works s (removeFollowOn d o s) :=
  .of_engine (removeFollowOn_moves d o s) (removeFollowOn_engine d o s)

theorem finishDrive_engine (a : Aperture) (o : OpOutcome) (s : State) : (finishDrive a o s).engine = s.engine := by
  unfold finishDrive
  split
  · rfl
  · rw [tell_engine, endDrive_engine]

theorem finishDrive_works (a : Aperture) (o : OpOutcome) (s : State) : Works s (finishDrive a o s) :=
  .of_engine (finishDrive_moves a o s) (finishDrive_engine a o s)

theorem latchFault_works (a : Aperture) (f : LatchFault) (s : State) : Works s (latchFault a f s) :=
  .of_engine (latchFault_moves a f s) rfl

theorem latchSensed_works (a : Aperture) (q : LatchState) (b : Bool) (s : State) : Works s (latchSensed a q b s) := by
  refine .of_engine (latchSensed_moves a q b s) ?_
  have lifted : ∀ (f : LatchFault) (u : LatchUnit),
      (latchFault a f (setLatch a u s)).engine = s.engine := fun _ _ => rfl
  unfold latchSensed
  dsimp only
  split
  · split
    · rw [finishDrive_engine, lifted]
    · split
      · rw [finishDrive_engine]; rfl
      · rfl
  · split
    · split
      · rfl
      · rfl
    · split
      · rfl
      · rfl

theorem childSensed_works (r : Rear) (q : Bool) (b : Bool) (s : State) : Works s (childSensed r q b s) := by
  refine .of_engine (childSensed_moves r q b s) ?_
  unfold childSensed
  dsimp only
  split
  · split
    · split
      · rw [finishDrive_engine]; rfl
      · rfl
    · split
      · rfl
      · rfl
  · split
    · rfl
    · rfl

/-! ### A switch delivered -/

theorem setConsumed_moves (d : Door) (own x : Bool) (s : State) :
    Moves s (setWindow d (setConsumed own x (windowAt s d)) s) :=
  .window _ _ s (by cases own <;> exact id)

theorem takeMovement_moves' (d : Door) (m : Movement) {s t : State} (h : Moves s t) : Moves s (takeMovement d m t).1 :=
  h.trans (takeMovement_moves d m t)

theorem switchRequest_moves (d : Door) (x : Direction) (auto own : Bool) (s : State) :
    Moves s (switchRequest d x auto own s) := by
  have asked : ∀ b : Bool, Moves s (if b then (takeMovement d (plainMove x .held (switchRequester own) []) s).1 else s) := by
    intro b
    split
    · exact takeMovement_moves _ _ _
    · exact .refl s
  unfold switchRequest
  dsimp only
  split
  · split
    · exact takeMovement_moves _ _ _
    · exact .refl s
    · exact asked _
  · exact asked _

theorem switchNeutral_moves (d : Door) (own : Bool) (s : State) : Moves s (switchNeutral d own s) := by
  unfold switchNeutral
  dsimp only
  split
  · exact (setConsumed_moves d own false s).trans (stopMovement_moves _ _ _)
  · split
    · exact (setConsumed_moves d own false s).trans (removeFollowOn_moves _ _ _)
    · exact setConsumed_moves d own false s

theorem switchPress_moves (d : Door) (x : Direction) (auto own : Bool) (s : State) :
    Moves s (switchPress d x auto own s) := by
  unfold switchPress
  dsimp only
  split
  · exact (stopMovement_moves _ _ _).trans (setConsumed_moves _ _ _ _)
  · split
    · exact (removeFollowOn_moves _ _ _).trans (setConsumed_moves _ _ _ _)
    · exact switchRequest_moves _ _ _ _ _

theorem switchUpgrade_moves (d : Door) (x : Direction) (own : Bool) (s : State) :
    Moves s (switchUpgrade d x own s) := by
  unfold switchUpgrade
  dsimp only
  split
  · split
    · exact takeMovement_moves _ _ _
    · exact .refl s
  · exact .refl s

theorem switchDelivery_moves (d : Door) (own : Bool) (old new : SwitchPos) (s : State) :
    Moves s (switchDelivery d own old new s) := by
  rw [switchDelivery_eq]
  split
  · exact .refl s
  · unfold switchGiven
    split
    · split
      · exact setConsumed_moves _ _ _ _
      · split
        · exact setConsumed_moves _ _ _ _
        · exact .refl s
    · split
      · exact switchNeutral_moves _ _ _
      · split
        · exact .refl s
        · split
          · split
            · exact switchUpgrade_moves _ _ _ _
            · exact .refl s
          · exact switchPress_moves _ _ _ _ _

theorem switchDelivery_works (d : Door) (own : Bool) (old new : SwitchPos) (s : State) :
    Works s (switchDelivery d own old new s) :=
  .of_engine (switchDelivery_moves d own old new s) (by rw [switchDelivery_work])

/-- A switch let go tells nothing. -/
theorem switchDelivery_neutral_mail (d : Door) (own : Bool) (old : SwitchPos) (s : State) :
    (switchDelivery d own old .neutral s).mail = s.mail := by
  rw [switchDelivery_eq]
  split
  · rfl
  · unfold switchGiven switchNeutral
    split
    · rfl
    · dsimp only [switchDirection]
      split
      · rw [stopMovement_mail]; rfl
      · split
        · rw [removeFollowOn_mail]; rfl
        · rfl

theorem requestSearch_entry_only (z : Zone) (p : Purpose) (w : List SearchWaiter) (s : State) :
    requestSearch z p w s = { s with entry := (requestSearch z p w s).entry } := by
  unfold requestSearch
  split
  · split
    · rfl
    · rfl
  · rfl

theorem startHeld_works (a : Aperture) (h : Held) (s : State) : Works s (startHeld a h s) := by
  have lets_go : Works s (setLatch a { latchAt s a with held := none } s) := ⟨.latch _ _ s (by exact id), rfl⟩
  unfold startHeld
  dsimp only
  generalize setLatch a { latchAt s a with held := none } s = x at lets_go
  refine lets_go.trans ?_
  split
  · exact requestRelease_works _ _ _
  · split
    · exact .of_engine (deny_moves _ _ _ _ _) (deny_engine _ _ _ _ _)
    · generalize lowered x a h.target = t
      have aimed : Works x (if t = h.target then x else setLatch a { latchAt x a with target := latchStateOf t } x) := by
        split
        · exact .refl x
        · exact ⟨.latch _ _ x (by exact id), rfl⟩
      generalize (if t = h.target then x else setLatch a { latchAt x a with target := latchStateOf t } x) = y at aimed
      refine aimed.trans ?_
      split
      · exact .of_engine (tell_moves _ _ _ _ _) (tell_engine _ _ _ _ _)
      · exact .of_engine (beginDrive_moves _ _ _ _ _) rfl

/-! ### What is kept throughout -/

/-- A predicate that stands during an event, and one that stands between events, of the units and the runs. -/
structure Lasting (P Q : State → Prop) : Prop where
  during : ∀ {s}, Q s → P s
  ends : ∀ {s}, P s → Q (finishEvent s)
  aside : ∀ {s t}, P s → (units : t.latches.unit = s.latches.unit := by rfl) →
    (windows : t.windows = s.windows := by rfl) → (runs : t.engine.runs = s.engine.runs := by rfl) → P t
  calm : ∀ {s t}, Q s → (units : t.latches.unit = s.latches.unit := by rfl) →
    (windows : t.windows = s.windows := by rfl) → (runs : t.engine.runs = s.engine.runs := by rfl) →
    (mail : t.mail = s.mail := by rfl) → Q t
  works : ∀ {s t}, P s → Works s t → P t
  quiet : ∀ {s t}, Q s → Works s t → t.mail = s.mail → Q t
  fires : ∀ {s} f, P s → P (fire f s).1
  retires : ∀ {s} t o, P s → P (retire t o s)
  retries : ∀ {s} t r, P s → P (retryRun t r s)
  chooses : ∀ {s t}, P s → activeTrigger s = none → chosenRun s = some t → P (activate t s)
  restates : ∀ {s t r x}, P s → runAt s t = some r → x.state = r.state → x.priority = r.priority → P (setRun t (some x) s)
  edge : ∀ {s} d g, P s → P (hallEdge d g s)
  stall : ∀ {s} d, P s → P (stallTimeout d s)
  noPulse : ∀ {s} d, P s → P (noPulses d s)
  limit : ∀ {s} d, P s → P (runLimit d s)
  coasted : ∀ {s} d, P s → P (coastEnd d s)
  started : ∀ {s} d, P s → P (motorStart d s)
  crashes : ∀ {s}, P s → P (allDoors.foldl crashWindow (crashLatches s))
  loads : ∀ {s}, P s → P (loadWindows s)
  resets : ∀ {s} p c, Q s → Q (afterReset p c s)
  clocks : ∀ {s}, Q s → Q (startClocks s)

namespace Lasting

section
variable {P Q : State → Prop} (L : Lasting P Q) {s : State}
include L

theorem free : FreeOfLink Q := fun _ _ _ _ h => L.calm h

theorem wake (h : P s) (w : WakeSource) : P (wake w s) := by
  rw [wake_eq]; exact L.aside h

theorem testSpeedLock (h : P s) : P (testSpeedLock s) := by
  unfold Machine.testSpeedLock
  split
  · exact L.fires _ (L.aside h)
  · exact h

omit L in
theorem foldl {α : Type} {f : State → α → State} (k : ∀ {s} x, P s → P (f s x)) (l : List α) (h : P s) :
    P (l.foldl f s) := by
  induction l generalizing s with
  | nil => exact h
  | cons x l ih => exact ih (k x h)

theorem searches (h : P s) (z : Zone) (p : Purpose) (w : List SearchWaiter) : P (requestSearch z p w s) := by
  rw [requestSearch_entry_only]
  exact L.aside h

/-! ### The inputs -/

theorem deliverSwitch (h : P s) (w : WinSwitch) (p : SwitchPos) : P (deliverSwitch w p s) :=
  L.works (L.aside h) (switchDelivery_works _ _ _ _ _)

theorem releaseSwitch (h : P s) (w : WinSwitch) : P (releaseSwitch s w) := by
  unfold Machine.releaseSwitch
  split
  · exact h
  · exact L.deliverSwitch h _ _

theorem closeGate (h : P s) : P (closeGate s) := by
  unfold Machine.closeGate
  split
  · exact h
  · exact foldl (P := P) (f := Machine.releaseSwitch) (fun w k => L.releaseSwitch k w) allWinSwitches h

/-- The gate closed between events, as PARK closes it: the switches let go tell nothing. -/
theorem closeGate_quiet (h : Q s) : Q (Machine.closeGate s) := by
  have one : ∀ {s : State} (w : WinSwitch), Q s → Q (Machine.releaseSwitch s w) := by
    intro s w k
    unfold Machine.releaseSwitch
    split
    · exact k
    · exact L.quiet (L.calm k) (switchDelivery_works _ _ _ _ _) (switchDelivery_neutral_mail _ _ _ _)
  have all : ∀ (l : List WinSwitch) {s : State}, Q s → Q (l.foldl Machine.releaseSwitch s) := by
    intro l
    induction l with
    | nil => exact fun k => k
    | cons w l ih => exact fun k => ih (one w k)
  unfold Machine.closeGate
  split
  · exact h
  · exact all allWinSwitches h

theorem switchQualified (h : P s) (w : WinSwitch) : P (switchQualified w s) := by
  have set : P (setInputs (setSwitch w { switchAt s.inputs w with pos := qualified (switchAt s.inputs w).pos } s.inputs) s) :=
    L.aside h
  unfold Machine.switchQualified
  dsimp only
  split
  · exact L.releaseSwitch set w
  · split
    · exact L.deliverSwitch set w _
    · exact set

theorem handlePull (h : P s) (d : Door) : P (handlePull d s) := by
  unfold Machine.handlePull
  split
  · exact L.works h (requestLatch_works _ _ _ _ _)
  · exact h

theorem rockerPress (h : P s) (f : Front) (l : Bool) : P (rockerPress f l s) := by
  unfold Machine.rockerPress
  dsimp only
  split
  · exact h
  · exact L.fires _ h

theorem childPress (h : P s) : P (childPress s) := by
  unfold Machine.childPress
  dsimp only
  generalize (if ((childAt s .rl).target && (childAt s .rr).target) = true then HeldTarget.off else .on) = x
  exact L.works h ((requestLatch_works _ x _ _ s).trans (requestLatch_works _ x _ _ _))

theorem takeNow (h : P s) (x : Deferred) : P (takeNow x s) := by
  cases x with
  | pull d => exact L.handlePull h d
  | rocker f l => exact L.rockerPress h f l
  | childButton => exact L.childPress h
  | release => exact L.works h (requestLatch_works _ _ _ _ _)
  | chain a x t g => exact L.aside (L.works h (requestLatch_works a x (.chain t) [g] s))

theorem takeOrDefer (h : P s) (x : Deferred) : P (takeOrDefer x s) := by
  unfold Machine.takeOrDefer
  split
  · exact L.takeNow h x
  · exact L.aside h

theorem deferredTake (h : Q s) : Q (deferredTake s) := by
  unfold Machine.deferredTake
  split
  · exact h
  · exact L.ends (L.takeNow (L.aside (L.during h)) _)

theorem tailgatePressed (h : P s) : P (tailgatePressed s) := by
  unfold Machine.tailgatePressed routeTailgate
  split
  · split
    · exact L.searches h _ _ _
    · exact L.takeOrDefer h _
  · exact L.aside h

theorem routeWaiting (h : P s) : P (routeWaiting s) := by
  unfold Machine.routeWaiting
  dsimp only
  split
  · exact foldl (P := P) (f := fun s _ => requestSearch .rear .tailgateButton [] s) (fun _ k => L.searches k _ _ _) _ (L.aside h)
  · exact h

theorem pairDelivered (h : P s) (a : Aperture) (v : Levels) (first : Bool) : P (pairDelivered a v first s) := by
  unfold Machine.pairDelivered
  dsimp only
  split
  · exact L.routeWaiting (L.works h (latchSensed_works _ _ _ _))
  · exact L.works h (latchSensed_works _ _ _ _)

theorem endRetained (h : P s) : P (endRetained s) :=
  L.closeGate (s := { s with vehicle := { s.vehicle with retained := none } }) (L.aside h)

theorem ajarDelivered (h : P s) (a : Aperture) (nowOpen : Bool) : P (ajarDelivered a nowOpen s) := by
  cases nowOpen with
  | false => exact L.testSpeedLock (L.wake h .ajar)
  | true =>
    have opens : P (opened (Machine.wake .ajar s)) := L.aside (L.wake h .ajar)
    by_cases front : a = .fl ∨ a = .fr
    · rw [ajarDelivered_front front]
      exact L.endRetained opens
    · rw [ajarDelivered_other front]
      exact opens

theorem padExpiry (h : P s) (p : Pad) : P (padExpiry p s) := by
  have set : ∀ n x, P (setInputs x (clockTo n s)) := fun _ _ => L.aside h
  unfold Machine.padExpiry
  dsimp only
  split
  · unfold touched
    dsimp only
    split
    · exact L.searches (L.wake (set _ _) .touch) _ _ _
    · exact L.wake (set _ _) .touch
  · exact set _ _
  · exact h
  · exact h

theorem crashEvent (h : P s) : P (crashEvent s) := by
  have struck := L.crashes h
  unfold Machine.crashEvent
  generalize allDoors.foldl crashWindow (crashLatches s) = x at struck
  dsimp only
  split
  · exact L.fires _ struck
  · exact L.aside struck

theorem crashExpiry (h : P s) : P (crashExpiry s) := by
  unfold Machine.crashExpiry
  dsimp only
  split
  · exact L.crashEvent (L.wake (L.aside h) _)
  · exact L.aside h
  · exact h
  · exact h

theorem qualify (h : P s) (i : Input) : P (qualify i s) := by
  have set : ∀ n x, P (setInputs x (clockTo n s)) := fun _ _ => L.aside h
  cases i with
  | pair a =>
    rw [qualify_pair]
    dsimp only
    split
    · exact L.pairDelivered (set _ _) _ _ _
    · exact h
  | childSwitch r =>
    rw [qualify_childSwitch]
    dsimp only
    split
    · exact L.works (set _ _) (childSensed_works _ _ _ _)
    · exact h
  | ajar a =>
    unfold Machine.qualify
    dsimp only
    split
    · exact L.ajarDelivered (set _ _) _ _
    · exact h
  | handle d =>
    rw [qualify_handle]
    dsimp only
    split
    · split
      · exact L.takeOrDefer (L.wake (set _ _) _) _
      · exact set _ _
    · exact h
  | rocker f =>
    rw [qualify_rocker]
    dsimp only
    split
    · split
      · exact L.takeOrDefer (L.wake (set _ _) _) _
      · exact set _ _
    · exact h
  | childButton =>
    rw [qualify_childButton]
    dsimp only
    split
    · split
      · exact L.takeOrDefer (set _ _) _
      · exact set _ _
    · exact h
  | tailgateButton =>
    rw [qualify_tailgateButton]
    dsimp only
    split
    · split
      · exact L.tailgatePressed (L.wake (set _ _) _)
      · exact set _ _
    · exact h
  | pad p => exact L.padExpiry h p
  | windowSwitch w =>
    rw [qualify_windowSwitch]
    split
    · exact L.switchQualified (L.aside h) w
    · exact h
  | crashLine => exact L.crashExpiry h

theorem takeVehicleState (h : P s) (n : Nat) (p : PowerMode) : P (takeVehicleState n p s) := by
  have tells : P (told n s) := L.aside h
  have powers : P (changePower p (told n s)) := by
    by_cases same : p = (told n s).vehicle.powerMode
    · rw [changePower_same same]; exact tells
    · rw [changePower_other same]
      exact L.closeGate (s := powered p (told n s)) (L.aside tells)
  rw [takeVehicleState_eq]
  refine L.testSpeedLock ?_
  unfold updated
  dsimp only
  split
  · exact L.aside powers
  · exact powers

/-! ### The requests -/

theorem reply (h : Q s) (st : Status) (p : List Byte) : Q (reply st p s) := L.free.reply h st p

theorem takeHostLatch (h : Q s) (x : HeldTarget) (a : Aperture) : Q (takeHostLatch x a s) := by
  have answers : ∀ (y : Answer) {t : State}, Q t → Q (replyLatch y t) := by
    intro y t k
    cases y <;> exact L.reply k _ _
  unfold Machine.takeHostLatch
  split
  · exact L.reply h _ _
  · exact answers _ (L.ends (L.works (L.during h) (requestLatch_works a x .link [] s)))

theorem replyWindow (h : Q s) (x : WindowAnswer) : Q (replyWindow x s) := by
  cases x <;> exact L.reply h _ _

theorem takeHostMove (h : Q s) (d : Door) (m : Movement) : Q (takeHostMove d m s) :=
  L.replyWindow (L.ends (L.works (L.during h) (requestMovement_works d m s))) _

theorem onWindow (h : Q s) (a : Aperture) {f : Door → State → State} (k : ∀ d, Q (f d s)) : Q (onWindow a f s) := by
  unfold Machine.onWindow
  split
  · exact L.reply h _ _
  · exact k _

theorem takeWindowTo (h : Q s) (p : Nat) (d : Door) : Q (takeWindowTo p d s) := by
  unfold Machine.takeWindowTo
  dsimp only
  split
  · exact L.takeHostMove h d _
  · exact L.replyWindow h _

theorem takeWindowStop (h : Q s) (d : Door) : Q (takeWindowStop d s) := by
  unfold Machine.takeWindowStop
  dsimp only
  split
  · exact L.reply h _ _
  · split
    · exact L.reply (L.ends (L.works (L.during h)
        ((stopMovement_works d _ s).trans (removeFollowOn_works d _ _)))) _ _
    · exact L.reply h _ _

/-- A window's record or its pending changes written over, within the bounds. -/
theorem setWindow (h : Q s) {d : Door} {w : Window} (k : windowWithin (windowAt s d) → windowWithin w) :
    Q (Machine.setWindow d w s) := L.quiet h ⟨.window d w s k, rfl⟩ rfl

theorem writeWindow (h : Q s) (d : Door) (w : List WriteWaiter) : Q (writeWindow d w s) := L.calm h

theorem takeWindowSetup (h : Q s) (l : Nat) (b : Bool) (d : Door) : Q (takeWindowSetup l b d s) := by
  unfold Machine.takeWindowSetup
  dsimp only
  split
  · split
    · exact L.reply h _ _
    · exact L.writeWindow (L.setWindow h (by exact id)) d _
  · exact L.reply (L.setWindow h (by exact id)) _ _

theorem takeWindowRelearn (h : Q s) (d : Door) : Q (takeWindowRelearn d s) := by
  have forgets : windowWithin (windowAt s d) → windowWithin { windowAt s d with
      record := { (windowAt s d).record with travel := none, refs := Vector.replicate 16 none } } := by
    rintro ⟨travel, position, count, score⟩
    refine ⟨nofun, fun known => ?_, count, score⟩
    have le := position known
    unfold bound at le ⊢
    cases e : (windowAt s d).record.travel with
    | none => simpa [e] using le
    | some l =>
      have := travel l e
      simp only [e] at le
      dsimp only
      omega
  unfold Machine.takeWindowRelearn
  dsimp only
  split
  · exact L.writeWindow (L.setWindow h forgets) d _
  · exact L.reply (L.setWindow h (by exact id)) _ _

theorem beginChange (h : Q s) (i : Fin 8) (c : KeyChange) : Q (beginChange i c s) := by
  unfold Machine.beginChange
  split
  · exact L.reply h _ _
  · split
    · exact L.reply h _ _
    · exact L.calm h

theorem requestChange (h : Q s) (i : Fin 8) (c : KeyChange) : Q (requestChange i c s) := by
  unfold Machine.requestChange
  split
  · exact L.beginChange h i c
  · exact L.calm h

theorem persistDefault (h : Q s) (n : Nat) : Q (persistDefault n s) := by
  unfold Machine.persistDefault
  split
  · exact L.calm h
  · exact L.calm h

theorem changeSettings (h : Q s) (x : Settings) : Q (changeSettings x s) := by
  have released : P (if x.driverFr = s.link.settings.driverFr then s else Machine.releaseSwitch s .passenger) := by
    split
    · exact L.during h
    · exact L.releaseSwitch (L.during h) _
  unfold Machine.changeSettings
  dsimp only
  generalize (if x.driverFr = s.link.settings.driverFr then s else Machine.releaseSwitch s .passenger) = y at released
  have set : P { y with link := { y.link with settings := x } } := L.aside released
  refine L.calm (L.ends ?_)
  split
  · exact set
  · exact L.testSpeedLock set

theorem takeTriggerFire (h : Q s) (i : Fin 64) (p : Nat) (a : Aperture) : Q (takeTriggerFire i p a s) := by
  unfold Machine.takeTriggerFire
  split
  · exact L.reply h _ _
  · exact L.reply (L.ends (L.fires _ (L.during h))) _ _

theorem resolve (h : Q s) (t : Trigger) {f : Run → State → State} (k : ∀ r, P (f r s)) : Q (resolve t f s) := by
  unfold Machine.resolve
  split
  · exact L.reply h _ _
  · split
    · exact L.reply (L.ends (k _)) _ _
    · exact L.reply h _ _

theorem takeClearCrash (h : Q s) : Q (takeClearCrash s) := by
  unfold Machine.takeClearCrash
  split
  · exact L.reply h _ _
  · split
    · exact L.reply h _ _
    · exact L.calm h

omit s in
theorem owner {c : Instr} {f : State → State} (e : ownerOf c = some f) : Keeps Q f := by
  have ready : ∀ {f : State → State}, (∀ s, Q s → Q (f s)) → Keeps Q (Machine.ready f) :=
    fun h => L.free.ready fun s _ => h s
  have needs : ∀ {α : Type} {x : Option α} {f : α → State → State} {s : State}, Q s →
      (∀ a, Q (f a s)) → Q (Machine.needs x f s) := fun k h => L.free.needs k h
  have answers : ∀ {s : State} (st : Status) (p : List Byte), Q s → Q (Machine.reply st p s) :=
    fun st p k => L.reply k st p
  cases c <;> try cases e
  case deviceStatus => exact fun s h => L.reply h _ _
  case deviceStatusClear => exact ready fun s h => answers _ _ (L.calm h)
  case reset => exact ready fun s h => answers _ _ (L.calm h)
  case park =>
    refine ready fun s h => ?_
    split
    · exact L.reply (L.closeGate_quiet (L.calm h)) _ _
    · exact L.reply h _ _
  case vehicleState =>
    exact ready fun s h => needs h fun p => L.reply (L.ends (L.takeVehicleState (L.during h) _ p)) _ _
  case attentionRead => exact ready fun s h => answers _ _ (L.calm h)
  case attentionMask => exact ready fun s h => answers _ _ (L.calm h)
  case settingsRead => exact ready fun s h => L.reply h _ _
  case settingsWrite =>
    refine ready fun s h => needs h fun x => needs h fun y => ?_
    unfold takeSettings
    split
    · exact L.reply h _ _
    · exact L.changeSettings h _
  case keyLookup => exact ready fun s h => needs h fun i => L.reply h _ _
  case keyFind =>
    refine ready fun s h => ?_
    split <;> exact L.reply h _ _
  case keyEnroll => exact ready fun s h => needs h fun i => needs h fun r => needs h fun p => L.requestChange h i _
  case keyProfile => exact ready fun s h => needs h fun i => needs h fun p => L.requestChange h i _
  case keyRole => exact ready fun s h => needs h fun i => needs h fun r => L.requestChange h i _
  case keySuspend => exact ready fun s h => needs h fun i => L.requestChange h i _
  case keyResume => exact ready fun s h => needs h fun i => L.requestChange h i _
  case keyRevoke => exact ready fun s h => needs h fun i => L.requestChange h i _
  case enrollOpen =>
    refine ready fun s h => ?_
    rw [requestSearch_entry_only]
    exact L.calm h
  case apertureRead => exact ready fun s h => needs h fun l => L.reply h _ _
  case apertureCommandLock => exact ready fun s h => needs h fun a => L.takeHostLatch h _ a
  case apertureCommandUnlock => exact ready fun s h => needs h fun a => L.takeHostLatch h _ a
  case apertureCommandDeadlock => exact ready fun s h => needs h fun a => L.takeHostLatch h _ a
  case apertureCommandChildOn => exact ready fun s h => needs h fun a => L.takeHostLatch h _ a
  case apertureCommandChildOff => exact ready fun s h => needs h fun a => L.takeHostLatch h _ a
  case apertureCommandTailgateRelease => exact ready fun s h => needs h fun a => L.takeHostLatch h _ a
  case apertureCommandWindowOpen =>
    exact ready fun s h => needs h fun a => L.onWindow h a fun d => L.takeHostMove h d _
  case apertureCommandWindowClose =>
    exact ready fun s h => needs h fun a => L.onWindow h a fun d => L.takeHostMove h d _
  case apertureCommandWindowTo =>
    exact ready fun s h => needs h fun a => needs h fun p => L.onWindow h a fun d => L.takeWindowTo h p d
  case windowStop => exact ready fun s h => needs h fun a => L.onWindow h a fun d => L.takeWindowStop h d
  case windowSetup => exact ready fun s h => needs h fun d => needs h fun x => L.takeWindowSetup h _ x d
  case windowRelearn => exact ready fun s h => needs h fun d => L.takeWindowRelearn h d
  case stepRead => exact ready fun s h => needs h fun i => L.reply h _ _
  case stepWrite =>
    refine ready fun s h => needs h fun i => needs h fun a => needs h fun x => ?_
    exact needs h fun g => needs h fun r => needs h fun f => needs h fun n => L.calm h
  case triggerRead => exact ready fun s h => needs h fun t => L.reply h _ _
  case triggerWrite =>
    refine ready fun s h => needs h fun t => needs h fun st => needs h fun g => ?_
    exact needs h fun x => needs h fun c => L.calm h
  case chainsDefault =>
    exact ready fun s h => L.persistDefault (s := loadDefaults s) (L.calm h) 0
  case triggerFire => exact ready fun s h => needs h fun i => needs h fun a => L.takeTriggerFire h i _ a
  case runStatus => exact ready fun s h => L.reply h _ _
  case runResolveRetry =>
    exact ready fun s h => needs h fun t => L.resolve h t fun r => L.retries t r (L.during h)
  case runResolveAbandon =>
    exact ready fun s h => needs h fun t => L.resolve h t fun r => L.retires t _ (L.during h)
  case clearCrash => exact ready fun s h => L.takeClearCrash h

/-! ### The events -/

theorem judge (h : P s) (f : StampedFrame) : P (judge f s) := by
  unfold Machine.judge
  split
  · exact L.aside h
  · split
    · exact L.aside h
    · split
      · exact L.aside h
      · exact L.aside h

theorem judge_calm (h : Q s) (f : StampedFrame) : Q (Machine.judge f s) := by
  unfold Machine.judge
  split
  · exact L.calm h
  · split
    · exact L.calm h
    · split
      · exact L.calm h
      · exact L.calm h

theorem frameTake (h : Q s) : Q (frameTake s) := by
  unfold Machine.frameTake
  split
  · split
    · exact h
    · next f rest _ => exact L.judge_calm (s := frameTaken rest s) (L.calm h) f
  · exact h

theorem rfArrival (h : Q s) (b : List Byte) : Q (rfArrival b s) := by
  have woken : Q (Machine.wake .rf s) := L.free.wake h .rf
  unfold Machine.rfArrival
  dsimp only
  split
  · exact woken
  · unfold offerFrame
    split
    · exact L.calm woken
    · exact woken
  · unfold takeResponse
    split
    · exact woken
    · split
      · exact L.calm woken
      · exact woken

theorem searchStart (h : Q s) : Q (searchStart s) := by
  unfold Machine.searchStart
  split
  · split
    · exact h
    · exact L.calm h
  · exact h

theorem challengeEnd (h : Q s) : Q (challengeEnd s) := by
  unfold Machine.challengeEnd
  split
  · exact h
  · split
    · exact h
    · exact L.calm h

theorem passiveResult (h : P s) (x : Search) (t : Trigger) (c : AccessCommand) : P (passiveResult x t c s) := by
  unfold Machine.passiveResult
  split
  · exact h
  · exact L.aside (L.fires _ h)

theorem insideResult (h : P s) (b : Bool) (w : SearchWaiter) : P (insideResult b s w) := by
  unfold Machine.insideResult
  split
  · exact h
  · split
    · exact h
    · next r e =>
      split
      · exact L.restates h e rfl rfl
      · exact h

theorem searchComplete (h : Q s) : Q (searchComplete s) := by
  unfold Machine.searchComplete
  split
  · exact h
  · split
    · dsimp only
      split
      · exact L.ends (L.passiveResult (L.aside (L.during h)) _ _ _)
      · split
        · exact L.ends (foldl (P := P) (f := Machine.insideResult _) (fun w k => L.insideResult k _ w) _ (L.aside (L.during h)))
        · unfold enrollResult
          split
          · exact L.calm h
          · exact L.calm h
    · exact h

theorem enrollExpiry (h : Q s) : Q (enrollExpiry s) := by
  unfold Machine.enrollExpiry
  split
  · exact h
  · exact L.calm h

theorem carryOut (h : P s) (i : Fin 8) (f : StampedFrame) : P (carryOut i f s) := by
  unfold Machine.carryOut
  dsimp only
  split
  · exact L.aside h
  · exact L.aside (L.fires _ h)

theorem counterStored (h : P s) (i : Fin 8) : P (counterStored i s) := by
  unfold Machine.counterStored
  split
  · split
    · exact L.carryOut h i _
    · exact h
  · exact h

theorem matchResumed (h : P s) (i : Fin 8) : P (matchResumed i s) := by
  unfold Machine.matchResumed
  split
  · split
    · exact L.judge h _
    · exact h
  · exact h

theorem beginWaiting (h : P s) (i : Fin 8) : P (beginWaiting i s) := by
  unfold Machine.beginWaiting
  split
  · exact h
  · split
    · unfold Machine.beginChange
      split
      · exact L.aside h
      · split
        · exact L.aside h
        · exact L.aside h
    · exact h

theorem tellWaiter (h : P s) (w : WriteWaiter) : P (tellWaiter s w) := by
  cases w with
  | counterPersist i => exact L.beginWaiting (L.counterStored (L.aside h) i) i
  | linkChange i => exact L.matchResumed (L.aside h) i
  | marker d => exact h
  | applied => exact L.aside h
  | replyOk => exact L.aside h
  | chainsDefault =>
    unfold Machine.tellWaiter
    dsimp only
    split
    · unfold Machine.persistDefault
      split
      · exact L.aside h
      · exact L.aside h
    · exact h

theorem writeComplete (h : Q s) : Q (writeComplete s) := by
  unfold Machine.writeComplete
  split
  · exact h
  · exact L.ends (foldl (P := P) (f := Machine.tellWaiter) (fun w k => L.tellWaiter k w) _ (L.aside (L.during h)))

theorem writeStart (h : Q s) : Q (writeStart s) := by
  unfold Machine.writeStart
  split
  · split
    · exact L.calm h
    · exact L.calm h
    · exact h
  · exact h

theorem scanComplete (h : Q s) : Q (scanComplete s) := by
  have settings : ∀ {y : State}, P y → P (loadCrash (loadSettings y)) := fun k => L.aside k
  have tables : P (loadTables s) := L.aside (L.during h) (runs := by simp only [loadTables])
  have loaded := settings (L.loads tables)
  generalize e : loadCrash (loadSettings (loadWindows (loadTables s))) = x at loaded
  have formed : P (formRepairs x) := by
    unfold formRepairs
    dsimp only
    split
    · exact L.aside loaded
    · exact L.aside loaded
  unfold Machine.scanComplete
  split
  · exact h
  · rw [e]
    refine L.ends ?_
    unfold deliverCrash
    split
    · exact L.fires _ (L.aside formed)
    · exact formed

theorem driveLimit (h : P s) (a : Aperture) : P (driveLimit a s) := by
  have ended : ∀ n o, P (finishDrive a o (clockTo n s)) := fun _ _ =>
    L.works (L.aside h) (finishDrive_works _ _ _)
  unfold Machine.driveLimit
  split
  · exact h
  · split
    · dsimp only
      split
      · exact L.aside (ended _ _)
      · exact ended _ _
    · exact L.works (ended _ _) (latchFault_works _ _ _)

theorem heldStart (h : P s) (a : Aperture) : P (heldStart a s) := by
  unfold Machine.heldStart
  split
  · exact h
  · split
    · exact h
    · split
      · exact L.works h (startHeld_works a _ s)
      · split
        · exact h
        · exact L.works (L.aside h) (startHeld_works a _ _)

theorem pulseEnd (h : P s) : P (pulseEnd s) := by
  unfold Machine.pulseEnd
  split
  · exact h
  · exact L.works (L.aside h) (.of_engine (tell_moves _ _ _ _ _) (tell_engine _ _ _ _ _))

omit s in
theorem event {c : Instr} {f : State → State} (e : eventOf c = some f) : Keeps Q f := by
  have finish : ∀ {f : State → State}, (∀ {s}, P s → P (f s)) → Keeps Q fun s => finishEvent (f s) :=
    fun k _ h => L.ends (k (L.during h))
  cases c <;> try cases e
  case scanComplete => exact fun s h => L.scanComplete h
  case storeWriteStart => exact fun s h => L.writeStart h
  case storeWriteComplete => exact fun s h => L.writeComplete h
  case rfFrameArrival b => exact fun s h => L.rfArrival h b
  case frameTake => exact fun s h => L.frameTake h
  case searchStart => exact fun s h => L.searchStart h
  case challengeEnd => exact fun s h => L.challengeEnd h
  case searchComplete => exact fun s h => L.searchComplete h
  case enrollWindowExpiry => exact fun s h => L.enrollExpiry h
  case qualificationTimeExpiry i => exact finish fun h => L.qualify h i
  case deferredRequestTake => exact fun s h => L.deferredTake h
  case supplyMeasurement => exact fun s h => L.calm h
  case latchHeldStart a => exact finish fun h => L.heldStart h a
  case latchDriveLimit a => exact finish fun h => L.driveLimit h a
  case releasePulseEnd => exact finish fun h => L.pulseEnd h
  case releaseIntervalEnd =>
    intro s h
    unfold intervalEnd
    split
    · exact h
    · exact L.calm h
  case hallEdge d g => exact finish fun h => L.edge d g h
  case stallTimeout d => exact finish fun h => L.stall d h
  case noPulses d => exact finish fun h => L.noPulse d h
  case runLimit d => exact finish fun h => L.limit d h
  case coastEnd d => exact finish fun h => L.coasted d h
  case motorStart d => exact finish fun h => L.started d h
  case retainedPowerExpiry =>
    intro s h
    unfold retainedExpiry
    split
    · exact h
    · exact L.ends (L.endRetained (L.aside (L.during h)))
  case speedStale =>
    intro s h
    unfold speedStale
    split
    · exact h
    · exact L.calm h
  case silenceTimerExpiry =>
    intro s h
    unfold silenceExpiry
    split
    · exact h
    · split
      · exact L.calm h
      · exact h
  case relockTimerExpiry =>
    intro s h
    unfold relockExpiry
    split
    · exact h
    · exact L.ends (L.fires _ (L.aside (L.during h)))
  case continuePointExpiry u =>
    intro s h
    unfold continueExpiry
    split
    · exact h
    · exact L.calm h
  case holdTimerExpiry u =>
    intro s h
    unfold holdExpiry
    split
    · exact h
    · split
      · exact h
      · exact L.ends (L.retires u _ (L.aside (L.during h)))
  case pauseEnd =>
    intro s h
    unfold Machine.pauseEnd
    split
    · exact h
    · split
      · exact h
      · next t _ r e =>
        split
        · next left since _ =>
          have later : P (clockTo (since + left) s) := L.aside (L.during h)
          exact L.ends (L.restates later (r := r) e rfl rfl)
        · exact h
  case engineChoice =>
    intro s h
    unfold engineChoice
    split
    · exact h
    · next idle =>
      split
      · exact h
      · next t e => exact L.ends (L.chooses (L.during h) (by simpa using idle) e)

omit s in
/-- What is kept throughout is kept by every command. -/
theorem exec {c : Instr} {s t : State} (h : Q s) (e : exec c s = .next t) : Q t :=
  exec_keeps L.free (fun _ _ => L.owner) (fun _ _ => L.event) (fun p c _ h => L.resets p c h)
    (fun _ _ h => L.calm h) (fun _ h => L.clocks h) (fun _ _ h => L.calm h) h e

omit s in
theorem step {s t : State} (h : Q s) (e : step s = .next t) : Q t :=
  step_keeps (fun _ _ _ => L.exec) (fun _ _ h => L.calm h) (fun _ h => L.calm h) h e

end

end Lasting

end Sys2Proof.Machine

/-! The engine's invariant is kept by every step, and no step leaves the engine something to do (07, R141). -/

namespace Sys2Proof.Machine

open Sys2Proof

/-! ### The Window Units' events touch no run -/

section
variable (d : Door) (s : State)

theorem endRunning_engine (o : OpOutcome) : (endRunning d o s).engine = s.engine := tellMotion_engine d o s

theorem windowFault_engine (f : WindowFault) : (windowFault d f s).engine = s.engine := endRunning_engine d _ _

theorem pinch_engine : (pinch d s).engine = s.engine := by
  have ended : ∀ w, (setWindow d w (raise .pinch (endRunning d (.fault .pinch) s))).engine = s.engine :=
    fun _ => endRunning_engine d s _
  unfold pinch
  dsimp only
  split
  · split
    · exact ended _
    · exact (removeFollowOn_engine d _ _).trans (ended _)
  · exact ended _

theorem topStop_engine : (topStop d s).engine = s.engine := endRunning_engine d _ _

theorem bottomStop_engine : (bottomStop d s).engine = s.engine := by
  unfold bottomStop
  dsimp only
  split
  · exact endRunning_engine d _ _
  · split
    · exact endRunning_engine d _ _
    · exact endRunning_engine d s _

theorem classifyStall_engine (x : Direction) : (classifyStall d x s).engine = s.engine := by
  unfold classifyStall
  dsimp only
  split
  · split
    · exact topStop_engine d s
    · split
      · exact topStop_engine d s
      · exact pinch_engine d s
  · split
    · exact windowFault_engine d s _
    · split
      · split
        · exact bottomStop_engine d s
        · exact windowFault_engine d s _
      · exact bottomStop_engine d s

theorem reached_engine (b : Bool) : (if b then endRunning d .done s else s).engine = s.engine := by
  split
  · exact endRunning_engine d s _
  · rfl

theorem runningEdge_engine (m : Motion) (p : Nat) : (runningEdge d m p s).engine = s.engine := by
  unfold runningEdge
  dsimp only
  split
  · exact windowFault_engine d _ _
  · split
    · split
      · split
        · exact pinch_engine d _
        · exact reached_engine d _ _
      · exact reached_engine d _ _
    · exact reached_engine d _ _

theorem coastingEdge_engine (m : Motion) : (coastingEdge d m s).engine = s.engine := by
  unfold coastingEdge
  dsimp only
  split <;> rfl

theorem hallEdge_engine (g : Nat) : (hallEdge d g s).engine = s.engine := by
  unfold hallEdge
  dsimp only
  split
  · rfl
  · next m _ =>
    have timed : (if (windowAt s d).phase = .running ∨ (windowAt s d).phase = .coasting then
        clockTo (edgeOrigin (windowAt s d) m + g) s else s).engine = s.engine := by
      split <;> rfl
    generalize (if (windowAt s d).phase = .running ∨ (windowAt s d).phase = .coasting then
      clockTo (edgeOrigin (windowAt s d) m + g) s else s) = x at timed
    have unless_close : ∀ (close : Bool) {y : State}, y.engine = x.engine →
        (if close then x else y).engine = s.engine := by
      intro close y same
      split
      · exact timed
      · exact same.trans timed
    cases (windowAt s d).phase with
    | running => exact unless_close _ (runningEdge_engine d x _ _)
    | coasting => exact unless_close _ (coastingEdge_engine d x _)
    | idle => exact timed
    | marking => exact timed

theorem stallTimeout_engine : (stallTimeout d s).engine = s.engine := by
  unfold stallTimeout
  dsimp only
  split
  · split
    · rfl
    · exact classifyStall_engine d _ _
  · rfl

theorem noPulses_engine : (noPulses d s).engine = s.engine := by
  unfold noPulses
  dsimp only
  split
  · split
    · exact windowFault_engine d _ _
    · rfl
  · rfl

theorem runLimit_engine : (runLimit d s).engine = s.engine := by
  unfold runLimit
  dsimp only
  split
  · exact windowFault_engine d _ _
  · rfl

theorem coastEnd_engine : (coastEnd d s).engine = s.engine := by
  unfold coastEnd
  dsimp only
  split
  · exact comeToRest_engine d _
  · rfl

theorem motorStart_engine : (motorStart d s).engine = s.engine := by
  unfold motorStart
  dsimp only
  split
  · split
    · rfl
    · exact startMotor_engine d _ _
  · rfl

end

/-! ### The crash and the loading -/

theorem crashWindow_engine (s : State) (d : Door) : (crashWindow s d).engine = s.engine := by
  rw [crashWindow, removeFollowOn_engine, stopMovement_engine]

theorem foldl_engine {α : Type} {f : State → α → State} (h : ∀ s x, (f s x).engine = s.engine) (l : List α) (s : State) :
    (l.foldl f s).engine = s.engine := by
  induction l generalizing s with
  | nil => rfl
  | cons x l ih => rw [List.foldl_cons, ih, h]

theorem crashed_engine (s : State) : (allDoors.foldl crashWindow (crashLatches s)).engine = s.engine := by
  rw [foldl_engine crashWindow_engine, crashLatches_work]
  show (holding s).engine = s.engine
  unfold holding
  split <;> rfl

theorem loadWindows_engine (s : State) : (loadWindows s).engine = s.engine :=
  foldl_engine (f := fun s d => setWindow d (loadWindow (receivedWindow s.store.flash d) (windowAt s d)) s)
    (fun _ _ => rfl) _ s

/-! ### Every step -/

/-- The engine's invariant during events; between them, nothing to do besides, where there was nothing before. -/
theorem engineInvariant_lasting (b : Prop) : Lasting engineInvariant fun s => engineInvariant s ∧ (b → Settled s) where
  during h := h.1
  ends h := ⟨h.finishEvent, fun _ => settled_finishEvent h.1⟩
  aside h _ _ runs := h.of_runs runs
  calm h _ _ runs mail := ⟨h.1.of_runs runs, fun k => (h.2 k).of_runs (mail.trans (h.2 k).1) runs⟩
  works h k := h.of_runs k.runs
  quiet h k mail := ⟨h.1.of_runs k.runs, fun a => (h.2 a).of_runs (mail.trans (h.2 a).1) k.runs⟩
  fires f h := h.fire f
  retires t o h := h.from (retire_from t o _)
  retries t r h := h.retryRun t r
  chooses _ idle e := engineInvariant_choice idle e
  restates h e same priority := h.from (.setRun e same priority)
  edge d g h := h.from (.of_engine (hallEdge_engine d _ g))
  stall d h := h.from (.of_engine (stallTimeout_engine d _))
  noPulse d h := h.from (.of_engine (noPulses_engine d _))
  limit d h := h.from (.of_engine (runLimit_engine d _))
  coasted d h := h.from (.of_engine (coastEnd_engine d _))
  started d h := h.from (.of_engine (motorStart_engine d _))
  crashes h := h.from (.of_engine (crashed_engine _))
  loads h := h.from (.of_engine (loadWindows_engine _))
  resets _ _ _ := ⟨engineInvariant_reset.of_runs rfl, fun _ => settled_reset.of_runs rfl rfl⟩
  clocks h := ⟨h.1.of_runs rfl, fun a => (h.2 a).of_runs (h.2 a).1 rfl⟩

/-- Settles O55. -/
theorem theEngineHasOneHolder : Obligations.TheEngineHasOneHolder := by
  intro s t h e
  exact (engineInvariant_lasting (Settled s)).step ⟨h, id⟩ e

end Sys2Proof.Machine

/-! The key records (02, R15 to R19): what a change and a judged frame do to them, command by command; the last ACTIVE
master stays. -/

namespace Sys2Proof.Machine

open Sys2Proof

/-! ### The checks of a change -/

theorem keyCheck_none {s : State} {i : Fin 8} {c : KeyChange} (h : keyCheck s i c = none) :
    keyPermitted s (keyAt s i).stored c = true ∧ keySlotStatus (keyAt s i).stored c = none ∧ identityTaken s c = false ∧
      (masterChecked c = true → takesLastMaster s i c = false) := by
  unfold keyCheck at h
  dsimp only at h
  split at h
  · cases h
  · next permitted =>
    split at h
    · cases h
    · next slot =>
      split at h
      · cases h
      · next taken =>
        split at h
        · cases h
        · next master =>
          refine ⟨by simpa using permitted, slot, by simpa using taken, fun checked => ?_⟩
          simpa [checked] using master

/-! ### The masters counted -/

theorem mem_allSlots (i : Fin 8) : i ∈ allSlots := by revert i; decide

theorem masterCount_pos {recs : Vector KeyRecord 8} :
    1 ≤ masterCount recs ↔ ∃ i, activeMaster (look recs i).stored = true := by
  unfold masterCount
  rw [Nat.one_le_iff_ne_zero, Ne, List.length_eq_zero_iff, List.filter_eq_nil_iff]
  simp only [mem_allSlots, true_implies, Bool.not_eq_true, Classical.not_forall, Bool.not_eq_false]

theorem masterCount_zero {recs : Vector KeyRecord 8} :
    masterCount recs = 0 ↔ ∀ i, activeMaster (look recs i).stored = false := by
  unfold masterCount
  rw [List.length_eq_zero_iff, List.filter_eq_nil_iff]
  simp only [mem_allSlots, true_implies, Bool.not_eq_true]

theorem activeMaster_iff {k : KeyStored} : activeMaster k = true ↔ k.state = .active ∧ k.role = .master := by
  simp [activeMaster]

/-! ### What is kept of the records -/

/-- A predicate of the records that a change and a judged frame keep. -/
structure KeysLasting (R : Vector KeyRecord 8 → Prop) : Prop where
  changes : ∀ {s : State} {i c m}, R s.keys.recs → keyCheck s i c = none →
    R (setKey i { changed (keyAt s i) c with marker := m } s).keys.recs
  touches : ∀ {s : State} {i k}, R s.keys.recs → k.stored.state = (keyAt s i).stored.state →
    k.stored.role = (keyAt s i).stored.role → k.rejects = (keyAt s i).rejects ∨ k.rejects ≤ 255 →
    R (setKey i k s).keys.recs

namespace KeysLasting

section
variable {R : Vector KeyRecord 8 → Prop} (L : KeysLasting R) {s : State}
include L

theorem beginChange (h : R s.keys.recs) (i : Fin 8) (c : KeyChange) : R (beginChange i c s).keys.recs := by
  unfold Machine.beginChange
  split
  · exact h
  · next checked =>
    split
    · exact h
    · exact L.changes h checked

theorem requestChange (h : R s.keys.recs) (i : Fin 8) (c : KeyChange) : R (requestChange i c s).keys.recs := by
  unfold Machine.requestChange
  split
  · exact L.beginChange h i c
  · exact h

theorem judge (h : R s.keys.recs) (f : StampedFrame) : R (judge f s).keys.recs := by
  unfold Machine.judge
  split
  · exact h
  · split
    · exact h
    · split
      · exact L.touches h rfl rfl (.inr (Nat.min_le_left _ _))
      · exact L.touches h rfl rfl (.inr (Nat.zero_le _))

theorem frameTake (h : R s.keys.recs) : R (frameTake s).keys.recs := by
  unfold Machine.frameTake
  split
  · split
    · exact h
    · next f rest _ => exact L.judge (s := frameTaken rest s) h f
  · exact h

theorem tellWaiter (h : R s.keys.recs) (w : WriteWaiter) : R (tellWaiter s w).keys.recs := by
  have cleared : ∀ i, R (clearMarker i s).keys.recs := fun i => L.touches h rfl rfl (.inl rfl)
  cases w with
  | counterPersist i =>
    have stored : R (counterStored i (clearMarker i s)).keys.recs := by
      have kept := counterStored_kept .park i (clearMarker i s)
      rw [kept.2.1 rfl]
      exact cleared i
    unfold Machine.tellWaiter Machine.beginWaiting
    dsimp only
    generalize counterStored i (clearMarker i s) = x at stored
    split
    · exact stored
    · split
      · exact L.beginChange (s := { x with keys := { x.keys with waiting := none } }) stored i _
      · exact stored
  | linkChange i =>
    unfold Machine.tellWaiter matchResumed
    dsimp only
    split
    · split
      · exact L.judge (s := reply .ok [] (clearMarker i s)) (cleared i) _
      · exact cleared i
    · exact cleared i
  | marker d => exact h
  | applied => exact h
  | replyOk => exact h
  | chainsDefault =>
    unfold Machine.tellWaiter Machine.persistDefault
    dsimp only
    split
    · split
      · exact h
      · exact h
    · exact h

theorem writeComplete (h : R s.keys.recs) : R (writeComplete s).keys.recs := by
  have told : ∀ (l : List WriteWaiter) (x : State), R x.keys.recs → R (l.foldl Machine.tellWaiter x).keys.recs := by
    intro l
    induction l with
    | nil => exact fun _ k => k
    | cons w l ih => exact fun x k => ih _ (L.tellWaiter k w)
  unfold Machine.writeComplete
  split
  · exact h
  · have ended := fun x => (finishEvent_tables x).2.2.1
    rw [ended]
    exact told _ _ h

omit s in
/-- Every owner keeps it. -/
theorem owner {c : Instr} {f : State → State} (e : ownerOf c = some f) : Keeps (fun s => R s.keys.recs) f := by
  have free : FreeOfLink fun s => R s.keys.recs := fun _ _ _ _ h => h
  have others : changesKeys c = false → Keeps (fun s => R s.keys.recs) f := by
    intro other s h
    show R (f s).keys.recs
    rw [(owner_keepsTables e s).2.1 other]
    exact h
  have ready : ∀ {f : State → State}, (∀ s : State, R s.keys.recs → R (f s).keys.recs) →
      Keeps (fun s => R s.keys.recs) (Machine.ready f) := fun h => free.ready fun s _ => h s
  have needs : ∀ {α : Type} {x : Option α} {f : α → State → State} {s : State}, R s.keys.recs →
      (∀ a, R (f a s).keys.recs) → R (Machine.needs x f s).keys.recs := fun k h => free.needs k h
  cases c <;> first
    | exact others rfl
    | cases e
  case keyEnroll => exact ready fun s h => needs h fun i => needs h fun r => needs h fun p => L.requestChange h i _
  case keyProfile => exact ready fun s h => needs h fun i => needs h fun p => L.requestChange h i _
  case keyRole => exact ready fun s h => needs h fun i => needs h fun r => L.requestChange h i _
  case keySuspend => exact ready fun s h => needs h fun i => L.requestChange h i _
  case keyResume => exact ready fun s h => needs h fun i => L.requestChange h i _
  case keyRevoke => exact ready fun s h => needs h fun i => L.requestChange h i _

omit s in
/-- Every event but the scan's end keeps it. -/
theorem event {c : Instr} {f : State → State} (e : eventOf c = some f) (other : c ≠ .scanComplete) :
    Keeps (fun s => R s.keys.recs) f := by
  have others : changesKeys c = false → Keeps (fun s => R s.keys.recs) f := by
    intro other s h
    show R (f s).keys.recs
    rw [(event_keepsTables e s).2.1 other]
    exact h
  cases c <;> first
    | exact others rfl
    | exact absurd rfl other
    | cases e
  case frameTake => exact fun s h => L.frameTake h
  case storeWriteComplete => exact fun s h => L.writeComplete h

omit s in
/-- Every command that neither loads the records nor resets the part keeps it. -/
theorem exec {c : Instr} {s t : State} (powerOn : c ≠ .powerOnReset) (low : ∀ v, c ≠ .lowVoltageReset v)
    (scan : c ≠ .scanComplete) (reset : mayReset c = true → s.sup.pendingReset = false) (e : exec c s = .next t)
    (h : R s.keys.recs) : R t.keys.recs := by
  have free : FreeOfLink fun s => R s.keys.recs := fun _ _ _ _ h => h
  have no_reset : mayReset c = true → s.sup.pendingReset = true → Keeps (fun s => R s.keys.recs) linkReset :=
    fun may pending => absurd pending (by simp [reset may])
  cases form c with
  | request own =>
    obtain ⟨n, meaning⟩ := exec_ownerOf own
    exact hostRequest_keeps free (L.owner own) h ((meaning s).symm.trans e)
  | event own => exact event_keeps (P := fun s => R s.keys.recs) h (L.event own scan s h) ((exec_eventOf own s).symm.trans e)
  | read n => exact event_keeps (P := fun s => R s.keys.recs) h (readTransaction_keeps free n h (no_reset rfl)) e
  | badFrame bytes =>
    exact event_keeps (P := fun s => R s.keys.recs) h
      (transaction_keeps free (fun _ _ => L.owner) bytes h (no_reset rfl)) e
  | overrun bytes =>
    exact event_keeps (P := fun s => R s.keys.recs) h
      (transaction_keeps free (fun _ _ => L.owner) bytes h (no_reset rfl)) e
  | powerOn => exact absurd rfl powerOn
  | lowVoltage v => exact absurd rfl (low v)
  | restart =>
    cases e
    unfold partRestart
    split
    · exact h
    · exact h
    · exact h
  | wire x => cases e; exact h

end

end KeysLasting

/-! ### The last master (02, R18) -/

theorem look_setKey (i j : Fin 8) (k : KeyRecord) (s : State) :
    look (setKey i k s).keys.recs j = if i = j then k else look s.keys.recs j := keyAt_setKey i j k s

/-- A change that is made leaves an ACTIVE master if there was one. -/
theorem masters_lasting : KeysLasting fun recs => 1 ≤ masterCount recs where
  changes := by
    intro s i c m some_master checked
    obtain ⟨_, slot, _, last⟩ := keyCheck_none checked
    have stays : masterCount (put s.keys.recs i (changed (keyAt s i) c)) ≠ 0 →
        1 ≤ masterCount (setKey i { changed (keyAt s i) c with marker := m } s).keys.recs := by
      intro ne
      obtain ⟨j, master⟩ := masterCount_pos.1 (Nat.one_le_iff_ne_zero.2 ne)
      refine masterCount_pos.2 ⟨j, ?_⟩
      rw [look_put] at master
      rw [look_setKey]
      split at master
      · next same => rw [if_pos same]; exact master
      · next other => rw [if_neg other]; exact master
    by_cases check : masterChecked c = true
    · refine stays fun none => ?_
      have last := last check
      simp [takesLastMaster, some_master, none] at last
    · obtain ⟨j, master⟩ := masterCount_pos.1 some_master
      refine masterCount_pos.2 ⟨j, ?_⟩
      rw [look_setKey]
      by_cases same : i = j
      · subst same
        obtain ⟨active, role⟩ := activeMaster_iff.1 master
        change (keyAt s i).stored.state = .active at active
        rw [if_pos rfl, activeMaster_iff]
        cases c with
        | enroll => simp [keySlotStatus, active] at slot
        | profile p => exact ⟨active, role⟩
        | resume => exact ⟨rfl, role⟩
        | role => exact absurd rfl check
        | suspend => exact absurd rfl check
        | revoke => exact absurd rfl check
      · rw [if_neg same]
        exact master
  touches := by
    intro s i k some_master state role _
    obtain ⟨j, master⟩ := masterCount_pos.1 some_master
    refine masterCount_pos.2 ⟨j, ?_⟩
    rw [look_setKey]
    split
    · next same =>
      subst same
      change activeMaster (keyAt s i).stored = true at master
      rw [activeMaster, state, role]
      exact master
    · exact master

theorem keyCommand_plain (i : Fin 8) (c : KeyChange) : keyCommand i c ≠ .powerOnReset ∧
    (∀ v, keyCommand i c ≠ .lowVoltageReset v) ∧ keyCommand i c ≠ .scanComplete ∧ mayReset (keyCommand i c) = false := by
  cases c <;> exact ⟨nofun, nofun, nofun, rfl⟩

/-- Settles O28. -/
theorem theLastMasterStays : Obligations.TheLastMasterStays := by
  refine ⟨fun i c s t e => ?_, fun c s t powerOn low scan reset e => masters_lasting.exec powerOn low scan reset e⟩
  obtain ⟨powerOn, low, scan, reset⟩ := keyCommand_plain i c
  exact masters_lasting.exec powerOn low scan (fun may => absurd may (by simp [reset])) e

end Sys2Proof.Machine

/-! The bounds of what the part holds, and the identities of its keys, kept by every step (12, R184; 02, R16). -/

namespace Sys2Proof.Machine

open Sys2Proof

/-! ### The units -/

theorem retryRun_moves (t : Trigger) (r : Run) (s : State) : Moves s (retryRun t r s) :=
  (setRun_moves _ _ _).trans (preempt_moves _ _)

theorem unitsWithin_afterReset (p : Power) (c : ResetCause) (s : State) : unitsWithin (afterReset p c s) := by
  obtain ⟨_, _, _, latches, windows⟩ := bounded_reset
  refine ⟨fun a => ?_, fun d => ?_⟩
  · have within := latches a
    rw [latchAt_reset] at within
    rw [afterReset_latch]
    exact within
  · have within := windows d
    rw [windowAt_reset] at within
    rw [afterReset_window]
    exact within

theorem startClocks_credit (s : State) (a : Aperture) : (latchAt (startClocks s) a).credit = (latchAt s a).credit := by
  cases a <;> rfl

theorem unitsWithin_lasting : Lasting unitsWithin unitsWithin where
  during h := h
  ends h := finishEvent_within h
  aside h units windows _ := by simpa only [unitsWithin, latchAt, windowAt, units, windows] using h
  calm h units windows _ _ := by simpa only [unitsWithin, latchAt, windowAt, units, windows] using h
  works h k := k.moves.within h
  quiet h k _ := k.moves.within h
  fires f h := (fire_moves f _).within h
  retires t o h := (retire_moves t o _).within h
  retries t r h := (retryRun_moves t r _).within h
  chooses h _ _ := (activate_moves _ _).within h
  restates h _ _ _ := (setRun_moves _ _ _).within h
  edge d g h := hallEdge_within d g h
  stall d h := stallTimeout_within d h
  noPulse d h := noPulses_within d h
  limit d h := runLimit_within d h
  coasted d h := coastEnd_within d h
  started d h := motorStart_within d h
  crashes h := (Moves.foldl crashWindow_moves _ _).within (crashLatches_within h)
  loads h := loadWindows_within h
  resets p c _ := unitsWithin_afterReset p c _
  clocks {s} h := ⟨fun a => by rw [creditWithin, startClocks_credit]; exact h.1 a, h.2⟩

/-! ### The queue, the rejects and the speed -/

theorem rejects_lasting : KeysLasting fun recs => ∀ i, (look recs i).rejects ≤ 255 where
  changes := by
    intro s i c m low checked j
    rw [look_setKey]
    split
    · cases c with
      | enroll => exact Nat.zero_le _
      | revoke => exact Nat.zero_le _
      | profile p => exact low i
      | role r => exact low i
      | suspend => exact low i
      | resume => exact low i
    · exact low j
  touches := by
    intro s i k low _ _ rejects j
    rw [look_setKey]
    split
    · obtain same | le := rejects
      · rw [same]; exact low i
      · exact le
    · exact low j

/-- The queue of frames, the reject counts and the speed within their bounds. -/
def tablesWithin (s : State) : Prop :=
  s.entry.rfQueue.length ≤ 2 ∧ (∀ i, (look s.keys.recs i).rejects ≤ 255) ∧ s.vehicle.speed ≤ 255

theorem tablesWithin_freeOfLink : FreeOfLink tablesWithin := fun _ _ _ _ h => h

theorem scanComplete_recs {s : State} (undone : s.store.scanDone = false) :
    (scanComplete s).keys.recs = (loadTables s).keys.recs := by
  have settings : ∀ x, (loadCrash (loadSettings x)).keys.recs = x.keys.recs := fun _ => rfl
  have repairs : ∀ x, (formRepairs x).keys.recs = x.keys.recs := fun x => by
    unfold formRepairs
    dsimp only
    split <;> rfl
  have deliver : ∀ x, (deliverCrash x).keys.recs = x.keys.recs := fun x => by
    unfold deliverCrash
    split
    · have same := fire_same (systemFiring .crash (driverAperture x))
        { x with latches := { x.latches with crashPending := false } }
      simp only [SameFields] at same
      rw [same.2.2.1]
    · rfl
  unfold scanComplete
  rw [undone, if_neg nofun, (finishEvent_tables _).2.2.1, deliver, repairs, settings, (loadWindows_tables _).2.2.1]

theorem takeVehicleState_speed (n : Nat) (p : PowerMode) (s : State) :
    (takeVehicleState n p s).vehicle.speed = min 255 n := by
  have powers : (changePower p (told n s)).vehicle.speed = min 255 n := by rw [changePower_work]; rfl
  have updates : (updated n p s).vehicle.speed = min 255 n := by
    unfold updated
    dsimp only
    split
    · exact powers
    · exact powers
  have kept := (testSpeedLock_moves (updated n p s)).kept.vehicle
  rw [takeVehicleState_eq, kept, updates]

theorem owner_keepsTablesWithin {c : Instr} {f : State → State} (e : ownerOf c = some f) : Keeps tablesWithin f := by
  intro s ⟨queue, rejects, speed⟩
  obtain ⟨_, _, _, _, _, _, _, _, _, sameSpeed, _, sameQueue, _⟩ := owner_keepsTables e s
  refine ⟨?_, rejects_lasting.owner e s rejects, ?_⟩
  · rw [sameQueue (by rintro b rfl; cases e) (by rintro rfl; cases e)]
    exact queue
  · by_cases other : ∀ v m, c ≠ .vehicleState v m
    · rw [(sameSpeed other).1]
      exact speed
    · simp only [Classical.not_forall, Classical.not_not] at other
      obtain ⟨v, m, rfl⟩ := other
      cases e
      have free : FreeOfLink fun s => s.vehicle.speed ≤ 255 := fun _ _ _ _ h => h
      refine free.ready (fun s _ h => free.needs h fun p => ?_) s speed
      show (finishEvent (takeVehicleState v.toNat p s)).vehicle.speed ≤ 255
      rw [(finishEvent_moves _).kept.vehicle, takeVehicleState_speed]
      exact Nat.min_le_left _ _

theorem rfArrival_queue {b : List Byte} {s : State} (h : s.entry.rfQueue.length ≤ 2) :
    (rfArrival b s).entry.rfQueue.length ≤ 2 := by
  have woken : (wake .rf s).entry.rfQueue.length ≤ 2 := by rw [wake_entry]; exact h
  unfold rfArrival
  dsimp only
  split
  · exact woken
  · unfold offerFrame
    split
    · next room =>
      show (_ ++ [_] : List StampedFrame).length ≤ 2
      rw [List.length_append]
      exact room
    · exact woken
  · unfold takeResponse
    split
    · exact woken
    · split
      · exact woken
      · exact woken

theorem judge_queue (f : StampedFrame) (s : State) : (judge f s).entry.rfQueue = s.entry.rfQueue := by
  unfold judge
  split
  · rfl
  · split
    · rfl
    · split
      · rfl
      · rfl

theorem frameTake_queue {s : State} (h : s.entry.rfQueue.length ≤ 2) : (frameTake s).entry.rfQueue.length ≤ 2 := by
  unfold frameTake
  split
  · split
    · exact h
    · next f rest e =>
      rw [judge_queue]
      rw [e] at h
      exact Nat.le_trans (Nat.le_succ _) h
  · exact h

theorem event_keepsTablesWithin {c : Instr} {f : State → State} (e : eventOf c = some f) : Keeps tablesWithin f := by
  intro s ⟨queue, rejects, speed⟩
  obtain ⟨_, _, _, _, _, _, _, _, _, sameSpeed, _, sameQueue, _⟩ := event_keepsTables e s
  refine ⟨?_, ?_, ?_⟩
  · by_cases arrival : ∃ b, c = .rfFrameArrival b
    · obtain ⟨b, rfl⟩ := arrival
      cases e
      exact rfArrival_queue queue
    · by_cases take : c = .frameTake
      · subst take
        cases e
        exact frameTake_queue queue
      · rw [sameQueue (fun b same => arrival ⟨b, same⟩) take]
        exact queue
  · by_cases scan : c = .scanComplete
    · subst scan
      cases e
      cases done : s.store.scanDone with
      | true => rwa [scanComplete, if_pos done]
      | false =>
        rw [scanComplete_recs done]
        intro i
        rw [show look (loadTables s).keys.recs i = KeyRecord.load (receivedKey s.store.flash i) from by
          simp [loadTables, look]]
        exact Nat.zero_le _
    · exact rejects_lasting.event e scan s rejects
  · rw [(sameSpeed (by rintro v m rfl; cases e)).1]
    exact speed

theorem tablesWithin_reset (p : Power) (c : ResetCause) (s : State) : tablesWithin (afterReset p c s) :=
  ⟨Nat.zero_le _, fun i => bounded_reset.2.1 i, Nat.zero_le _⟩

theorem exec_keepsTablesWithin {c : Instr} {s t : State} (h : tablesWithin s) (e : exec c s = .next t) :
    tablesWithin t :=
  exec_keeps tablesWithin_freeOfLink (fun _ _ => owner_keepsTablesWithin) (fun _ _ => event_keepsTablesWithin)
    (fun p c s _ => tablesWithin_reset p c s) (fun _ _ h => h) (fun _ h => h) (fun _ _ h => h) h e

theorem bounded_iff (s : State) : bounded s ↔ tablesWithin s ∧ unitsWithin s := by
  simp only [bounded, tablesWithin, keyAt, and_assoc]

theorem step_bounded {s t : State} (h : bounded s) (e : step s = .next t) : bounded t := by
  obtain ⟨tables, units⟩ := (bounded_iff s).1 h
  exact (bounded_iff t).2
    ⟨step_keeps (fun _ _ _ => exec_keepsTablesWithin) (fun _ _ h => h) (fun _ h => h) tables e,
      unitsWithin_lasting.step units e⟩

/-! ### The identities -/

theorem keysInvariant_freeOfLink : FreeOfLink keysInvariant :=
  fun _ _ _ _ h => h.kept ⟨rfl, rfl, rfl, rfl, rfl, rfl⟩

theorem owner_identities {c : Instr} {f : State → State} (e : ownerOf c = some f) : KeepsIdentities f := by
  cases c <;> try cases e
  case deviceStatus => exact reqDeviceStatus_identities
  case deviceStatusClear => exact reqDeviceStatusClear_identities
  case reset => exact reqReset_identities
  case park => exact reqPark_identities
  case vehicleState => exact reqVehicleState_identities _ _
  case attentionRead => exact reqAttentionRead_identities
  case attentionMask => exact reqAttentionMask_identities _
  case settingsRead => exact reqSettingsRead_identities
  case settingsWrite => exact reqSettingsWrite_identities _ _ _ _ _ _ _
  case keyLookup => exact reqKeyLookup_identities _
  case keyFind => exact reqKeyFind_identities _
  case keyEnroll => exact reqKeyEnroll_identities _ _ _ _ _ _ _ _
  case keyProfile => exact reqKeyProfile_identities _ _ _ _
  case keyRole => exact reqKeyRole_identities _ _
  case keySuspend => exact reqKeySuspend_identities _
  case keyResume => exact reqKeyResume_identities _
  case keyRevoke => exact reqKeyRevoke_identities _
  case enrollOpen => exact reqEnrollOpen_identities
  case apertureRead => exact reqApertureRead_identities _
  case apertureCommandLock => exact reqLatch_identities _ _
  case apertureCommandUnlock => exact reqLatch_identities _ _
  case apertureCommandDeadlock => exact reqLatch_identities _ _
  case apertureCommandChildOn => exact reqLatch_identities _ _
  case apertureCommandChildOff => exact reqLatch_identities _ _
  case apertureCommandTailgateRelease => exact reqLatch_identities _ _
  case apertureCommandWindowOpen => exact reqWindowMove_identities _ _
  case apertureCommandWindowClose => exact reqWindowMove_identities _ _
  case apertureCommandWindowTo => exact reqWindowTo_identities _ _
  case windowStop => exact reqWindowStop_identities _
  case windowSetup => exact reqWindowSetup_identities _ _ _
  case windowRelearn => exact reqWindowRelearn_identities _
  case stepRead => exact reqStepRead_identities _
  case stepWrite => exact reqStepWrite_identities _ _ _ _ _ _ _
  case triggerRead => exact reqTriggerRead_identities _
  case triggerWrite => exact reqTriggerWrite_identities _ _ _ _ _ _
  case chainsDefault => exact reqChainsDefault_identities
  case triggerFire => exact reqTriggerFire_identities _ _ _
  case runStatus => exact reqRunStatus_identities
  case runResolveRetry => exact reqRunRetry_identities _
  case runResolveAbandon => exact reqRunAbandon_identities _
  case clearCrash => exact reqClearCrash_identities

theorem event_keepsIdentities {c : Instr} {f : State → State} (e : eventOf c = some f) : KeepsIdentities f := by
  have tables : ∀ {f : State → State}, (∀ s, SameTables s (f s)) → KeepsIdentities f := fun h => .kept fun s => (h s).keys
  have finished : ∀ {f : State → State}, (∀ s, SameTables s (f s)) → KeepsIdentities fun s => finishEvent (f s) :=
    fun h => .finished fun s => (h s).keys
  cases c <;> try cases e
  case scanComplete => exact fun s h => h.scanComplete
  case storeWriteStart => exact fun s h => h.writeStart
  case storeWriteComplete => exact fun s h => h.writeComplete
  case rfFrameArrival b => exact .kept (rfArrival_keysKept b)
  case frameTake => exact fun s h => h.frameTake
  case searchStart => exact tables searchStart_tables
  case challengeEnd => exact tables challengeEnd_tables
  case searchComplete => exact .kept searchComplete_keysKept
  case enrollWindowExpiry =>
    refine .kept fun s => ?_
    unfold enrollExpiry
    split
    · exact .refl s
    · exact ⟨rfl, rfl, rfl, rfl, rfl, rfl⟩
  case qualificationTimeExpiry i => exact .finished (qualify_keysKept i)
  case deferredRequestTake => exact tables deferredTake_tables
  case supplyMeasurement => exact .kept fun s => ⟨rfl, rfl, rfl, rfl, rfl, rfl⟩
  case latchHeldStart a => exact finished (heldStart_tables a)
  case latchDriveLimit a => exact finished (driveLimit_tables a)
  case releasePulseEnd =>
    refine .finished fun s => ?_
    unfold pulseEnd
    split
    · exact .refl s
    · exact (tell_moves _ _ _ _ _).kept.same.keys.after ⟨rfl, rfl, rfl, rfl, rfl, rfl⟩
  case releaseIntervalEnd =>
    refine .kept fun s => ?_
    unfold intervalEnd
    split
    · exact .refl s
    · exact ⟨rfl, rfl, rfl, rfl, rfl, rfl⟩
  case hallEdge d g => exact finished (hallEdge_tables d g)
  case stallTimeout d => exact finished (stallTimeout_tables d)
  case noPulses d => exact finished (noPulses_tables d)
  case runLimit d => exact finished (runLimit_tables d)
  case coastEnd d => exact finished (coastEnd_tables d)
  case motorStart d => exact finished (motorStart_tables d)
  case retainedPowerExpiry => exact tables retainedExpiry_tables
  case speedStale => exact tables speedStale_tables
  case silenceTimerExpiry => exact tables silenceExpiry_tables
  case relockTimerExpiry => exact tables relockExpiry_tables
  case continuePointExpiry u => exact tables (continueExpiry_tables u)
  case holdTimerExpiry u => exact tables (holdExpiry_tables u)
  case pauseEnd => exact tables pauseEnd_tables
  case engineChoice => exact tables engineChoice_tables

theorem exec_identities {c : Instr} {s t : State} (h : keysInvariant s) (e : exec c s = .next t) : keysInvariant t :=
  exec_keeps keysInvariant_freeOfLink (fun _ _ => owner_identities) (fun _ _ => event_keepsIdentities)
    (fun p c _ h => h.afterReset p c) (fun _ _ h => h.kept ⟨rfl, rfl, rfl, rfl, rfl, rfl⟩)
    (fun _ h => h.kept ⟨rfl, rfl, rfl, rfl, rfl, rfl⟩) (fun _ _ h => h.kept ⟨rfl, rfl, rfl, rfl, rfl, rfl⟩) h e

/-- Settles O60. -/
theorem boundsAreKept : Obligations.BoundsAreKept := by
  refine ⟨fun s t h e => step_bounded h e, fun s h => ?_, fun s h => ?_, fun s t h e => ?_⟩
  · obtain ⟨_, latches, windows⟩ := (bounded_iff s).1 h
    refine ⟨fun a => creditOf_within (latches a) _, fun d => ?_⟩
    obtain ⟨travel, position, count, score⟩ := windows d
    refine ⟨travel, fun l known e => ?_, fun known e => ?_, count, fun m e => ?_⟩
    · simpa [e, bound] using position known
    · simpa [e, bound] using position known
    · obtain ⟨low, zero⟩ := score m e
      refine ⟨low, fun still => zero.resolve_right ?_⟩
      rintro ⟨running, closing⟩
      exact still (by simp [motor, running, e, closing])
  · obtain ⟨apart, writes, _⟩ := h
    exact ⟨apart, writes.now⟩
  · exact step_keeps (fun _ _ _ => exec_identities) (fun _ _ h => h.kept ⟨rfl, rfl, rfl, rfl, rfl, rfl⟩)
      (fun _ h => h.kept ⟨rfl, rfl, rfl, rfl, rfl, rfl⟩) h e

end Sys2Proof.Machine

/-! The changes of key records asked for by the host (02, R15 to R20): the checks in their order, what each sets. -/

namespace Sys2Proof.Machine

open Sys2Proof

/-! ### The operands of a change -/

theorem slotOf_byte (i : Fin 8) : slotOf (byte i.val) = some i := by revert i; decide

theorem roleOf_byte {r : Role} (h : r ≠ .system) : roleOf (byte (roleCode r)) = some r := by
  cases r with
  | system => exact absurd rfl h
  | _ => rfl

theorem profileOf_byte (p : Profile) : profileOf (byte (unlockModeCode p.unlockMode)) (byte (boolCode p.passiveEntry))
    (byte (boolCode p.comfortWindows)) = some p := by
  obtain ⟨u, e, w⟩ := p
  cases u <;> cases e <;> cases w <;> rfl

/-- A sound change told by its command reaches the record. -/
theorem exec_keyCommand (i : Fin 8) {c : KeyChange} {s : State} (serves : Serving s) (sound : c.sound) :
    exec (keyCommand i c) s = .next (requestChange i c (taken c.bytes s)) := by
  cases c with
  | enroll x k r n p =>
    refine (hostRequest_ready serves).trans ?_
    rw [slotOf_byte, needs_some, roleOf_byte sound, needs_some, profileOf_byte, needs_some]
    rfl
  | profile p =>
    refine (hostRequest_ready serves).trans ?_
    rw [slotOf_byte, needs_some, profileOf_byte, needs_some]
    rfl
  | role r =>
    refine (hostRequest_ready serves).trans ?_
    rw [slotOf_byte, needs_some, roleOf_byte sound, needs_some]
    rfl
  | suspend =>
    refine (hostRequest_ready serves).trans ?_
    rw [slotOf_byte, needs_some]
    rfl
  | resume =>
    refine (hostRequest_ready serves).trans ?_
    rw [slotOf_byte, needs_some]
    rfl
  | revoke =>
    refine (hostRequest_ready serves).trans ?_
    rw [slotOf_byte, needs_some]
    rfl

/-! ### A change taken -/

section
variable {s : State} {i : Fin 8} {c : KeyChange}

theorem keyAt_taken (n : Nat) (s : State) (i : Fin 8) : keyAt (taken n s) i = keyAt s i := by
  rw [keyAt, taken_keys]
  rfl

theorem keyCheck_taken (n : Nat) (s : State) (i : Fin 8) (c : KeyChange) : keyCheck (taken n s) i c = keyCheck s i c := by
  have permitted : keyPermitted (taken n s) = keyPermitted s := by
    funext k c
    cases c <;> simp only [keyPermitted, taken_keys]
  have identity : identityTaken (taken n s) = identityTaken s := by
    funext c
    cases c <;> simp only [identityTaken, findIdentity, keyAt_taken]
  have last : takesLastMaster (taken n s) = takesLastMaster s := by
    funext i c
    simp only [takesLastMaster, keyAt_taken, taken_keys]
  simp only [keyCheck, permitted, identity, last, keyAt_taken]

theorem requestChange_free (free : (keyAt s i).marker = .none) : requestChange i c s = beginChange i c s := if_pos free

theorem requestChange_waits (busy : (keyAt s i).marker ≠ .none) :
    requestChange i c s = { s with keys := { s.keys with waiting := some (i, c) } } := if_neg busy

theorem beginChange_refused {st : Status} (h : keyCheck s i c = some st) : beginChange i c s = reply st [] s := by
  unfold beginChange
  rw [h]

theorem beginChange_nothing (h : keyCheck s i c = none) (same : nothingToChange (keyAt s i) c = true) :
    beginChange i c s = reply .ok [] s := by
  unfold beginChange
  simp only [h, same, if_true]

theorem beginChange_made (h : keyCheck s i c = none) (new : nothingToChange (keyAt s i) c = false) :
    beginChange i c s = offer (.key i) (.key (changed (keyAt s i) c).stored) [.linkChange i]
      (setKey i { changed (keyAt s i) c with marker := .linkChange } s) := by
  unfold beginChange
  simp [h, new]

end

/-! ### The checks -/

/-- A record in use (02, R16). -/
theorem usable_iff {k : KeyStored} : usable k = true ↔ k.state = .active ∨ k.state = .suspended := by simp [usable]

theorem findIdentity_isSome {s : State} {x : BitVec 32} : (findIdentity s x).isSome = true ↔
    ∃ j, usable (keyAt s j).stored = true ∧ (keyAt s j).stored.identity = some x := by
  unfold findIdentity
  simp only [List.find?_isSome, mem_allSlots, true_and, Bool.and_eq_true, decide_eq_true_eq]

theorem takesLastMaster_iff {s : State} {i : Fin 8} {c : KeyChange} : takesLastMaster s i c = true ↔
    (∃ j, activeMaster (keyAt s j).stored = true) ∧ ¬activeMaster (changed (keyAt s i) c).stored = true ∧
      ∀ j, j ≠ i → ¬activeMaster (keyAt s j).stored = true := by
  unfold takesLastMaster
  simp only [Bool.and_eq_true, decide_eq_true_eq, masterCount_pos, masterCount_zero, ← Bool.not_eq_true]
  refine and_congr_right fun _ => ⟨fun none => ⟨?_, fun j other => ?_⟩, fun ⟨new, others⟩ j => ?_⟩
  · have here := none i
    rwa [look_put, if_pos rfl] at here
  · have there := none j
    rwa [look_put, if_neg other.symm] at there
  · rw [look_put]
    split
    · exact new
    · next other => exact others j fun same => other same.symm

section
variable {s : State} {i : Fin 8} {c : KeyChange}

theorem keyCheck_noWindow (h : keyPermitted s (keyAt s i).stored c = false) : keyCheck s i c = some .noWindow := if_pos h

variable (permitted : keyPermitted s (keyAt s i).stored c = true)
include permitted

theorem keyCheck_slot {st : Status} (slot : keySlotStatus (keyAt s i).stored c = some st) : keyCheck s i c = some st := by
  simp [keyCheck, permitted, slot]

variable (slot : keySlotStatus (keyAt s i).stored c = none)
include slot

theorem keyCheck_duplicate (taken : identityTaken s c = true) : keyCheck s i c = some .duplicateId := by
  simp [keyCheck, permitted, slot, taken]

variable (new : identityTaken s c = false)
include new

theorem keyCheck_lastMaster (checked : masterChecked c = true) (last : takesLastMaster s i c = true) :
    keyCheck s i c = some .lastMaster := by
  simp [keyCheck, permitted, slot, new, checked, last]

theorem keyCheck_passes (stays : masterChecked c = true → takesLastMaster s i c = false) : keyCheck s i c = none := by
  cases checked : masterChecked c with
  | false => simp [keyCheck, permitted, slot, new, checked]
  | true => simp [keyCheck, permitted, slot, new, checked, stays checked]

end

/-- The changes that need a window and a record in use. -/
def windowed : KeyChange → Bool
  | .role _ => true
  | .suspend => true
  | .resume => true
  | _ => false

section
variable {s : State} {i : Fin 8} {c : KeyChange}

theorem keyPermitted_windowed (w : windowed c = true ∨ c = .revoke) (k : KeyStored) :
    keyPermitted s k c = (s.keys.window.isSome || !usable k) := by
  cases c <;> first | rfl | (obtain w | w := w <;> cases w)

theorem identityTaken_windowed (w : windowed c = true ∨ c = .revoke) : identityTaken s c = false := by
  cases c <;> first | rfl | (obtain w | w := w <;> cases w)

/-- What a slot's state answers to a change that needs a record in use. -/
theorem keySlotStatus_used {k : KeyStored} (w : windowed c = true ∨ ∃ p, c = .profile p) :
    (k.state = .empty → keySlotStatus k c = some .notFound) ∧
    (k.state = .damaged → keySlotStatus k c = some (.refused .damaged)) ∧
    (usable k = true → keySlotStatus k c = none) := by
  have form : keySlotStatus k c = match k.state with
      | .empty => some .notFound
      | .damaged => some (.refused .damaged)
      | .active => none
      | .suspended => none := by
    cases c with
    | enroll => obtain w | ⟨_, w⟩ := w <;> cases w
    | revoke => obtain w | ⟨_, w⟩ := w <;> cases w
    | _ => rfl
  rw [form]
  refine ⟨fun e => by rw [e], fun e => by rw [e], fun u => ?_⟩
  obtain e | e := usable_iff.1 u <;> rw [e]

theorem unusable_of {k : KeyStored} {x : KeyState} (e : k.state = x) (a : x ≠ .active) (b : x ≠ .suspended) :
    usable k = false := by
  simp [usable, e, a, b]

/-- A change that needs a record in use answers by the slot first where the slot is not in use. -/
theorem keyCheck_unused (w : windowed c = true ∨ c = .revoke) {st : Status} (idle : usable (keyAt s i).stored = false)
    (slot : keySlotStatus (keyAt s i).stored c = some st) : keyCheck s i c = some st :=
  keyCheck_slot (by simp [keyPermitted_windowed w, idle]) slot

theorem keyCheck_shut (w : windowed c = true ∨ c = .revoke) (used : usable (keyAt s i).stored = true)
    (shut : ¬s.keys.window ≠ none) : keyCheck s i c = some .noWindow := by
  have shut : s.keys.window = none := Classical.not_not.1 shut
  exact keyCheck_noWindow (by simp [keyPermitted_windowed w, used, shut])

theorem keyPermitted_open (w : windowed c = true ∨ c = .revoke) (k : KeyStored) (isOpen : s.keys.window ≠ none) :
    keyPermitted s k c = true := by
  obtain ⟨x, e⟩ := Option.ne_none_iff_exists'.1 isOpen
  simp [keyPermitted_windowed w, e]

end

/-! ### What a change sets -/

theorem nothingToChange_iff {k : KeyRecord} {c : KeyChange} (w : windowed c = true ∨ ∃ p, c = .profile p) :
    nothingToChange k c = true ↔ (changed k c).stored = k.stored := by
  have form : nothingToChange k c = decide (changed k c = k) ∧ changed k c = { k with stored := (changed k c).stored } := by
    cases c with
    | enroll => obtain w | ⟨_, w⟩ := w <;> cases w
    | revoke => obtain w | ⟨_, w⟩ := w <;> cases w
    | _ => exact ⟨rfl, rfl⟩
  obtain ⟨means, sets⟩ := form
  rw [means, decide_eq_true_eq]
  exact ⟨fun h => congrArg KeyRecord.stored h, fun h => sets.trans (by rw [h])⟩

/-- Settles O27. -/
theorem keyChangesAreMadeAndWritten : Obligations.KeyChangesAreMadeAndWritten := by
  refine ⟨fun i c s serves sound free checked new => ?made, fun i c s serves sound => ?refused, fun i c s => ?checks,
    fun k => ?sets⟩
  case made =>
    have meaning := exec_keyCommand i serves sound
    have keys := taken_keys c.bytes s
    have checked' := (keyCheck_taken c.bytes s i c).trans checked
    have at_taken := keyAt_taken c.bytes s
    have working := taken_link_state c.bytes s
    generalize taken c.bytes s = x at meaning keys checked' at_taken working
    rw [requestChange_free (by rw [at_taken]; exact free),
      beginChange_made checked' (by rw [at_taken]; exact new), at_taken] at meaning
    refine ⟨_, meaning, keyAt_setKey_same _ _ _, fun j other => ?_, ?_, working,
      offer_queued _ _ _ _ (List.mem_singleton.2 rfl)⟩
    · exact (keyAt_setKey _ _ _ _).trans ((if_neg (Ne.symm other)).trans (at_taken j))
    · exact (congrArg KeyTable.window keys : x.keys.window = s.keys.window)
  case refused =>
    have meaning := exec_keyCommand i serves sound
    have keys := taken_keys c.bytes s
    have same := keyCheck_taken c.bytes s i c
    have at_taken := keyAt_taken c.bytes s
    generalize taken c.bytes s = x at meaning keys same at_taken ⊢
    refine ⟨fun free st checked => ?_, fun free checked nothing => ?_, fun busy => ?_⟩
    · rw [meaning, requestChange_free (by rw [at_taken]; exact free), beginChange_refused (same.trans checked)]
    · rw [meaning, requestChange_free (by rw [at_taken]; exact free),
        beginChange_nothing (same.trans checked) (by rw [at_taken]; exact nothing)]
    · rw [meaning, requestChange_waits (by rw [at_taken]; exact busy), keys]
  case checks =>
    have master : ∀ x : KeyStored, activeMaster x = true ↔ x.state = .active ∧ x.role = .master := fun _ =>
      activeMaster_iff
    dsimp only
    simp only [← master, ← usable_iff]
    refine ⟨fun x y r n p e => ?enroll, fun p e => ?profile, fun which => ?windowed, fun e => ?revoke⟩
    case enroll =>
      subst e
      have permit : ∀ k, keyPermitted s k (.enroll x y r n p) = true ↔
          s.keys.window ≠ none ∨ (r = .master ∧ ∀ j, ¬activeMaster (keyAt s j).stored = true) := by
        intro k
        simp only [keyPermitted, Bool.or_eq_true, Bool.and_eq_true, decide_eq_true_eq, masterCount_zero,
          Option.isSome_iff_ne_none, ← Bool.not_eq_true, keyAt]
      refine ⟨fun no => keyCheck_noWindow ?_, fun yes busy => keyCheck_slot ((permit _).2 yes) (if_neg busy),
        fun yes empty taken => keyCheck_duplicate ((permit _).2 yes) (if_pos empty) (findIdentity_isSome.2 taken),
        fun yes empty fresh => keyCheck_passes ((permit _).2 yes) (if_pos empty) ?_ nofun⟩
      · exact Bool.eq_false_iff.2 fun h => no ((permit _).1 h)
      · exact Bool.eq_false_iff.2 fun h => fresh (findIdentity_isSome.1 h)
    case profile =>
      subst e
      obtain ⟨empty, damaged, used⟩ := keySlotStatus_used (k := (keyAt s i).stored) (c := .profile p) (.inr ⟨p, rfl⟩)
      exact ⟨fun e => keyCheck_slot rfl (empty e), fun e => keyCheck_slot rfl (damaged e),
        fun u => keyCheck_passes rfl (used u) rfl nofun⟩
    case windowed =>
      have w : windowed c = true := by obtain ⟨r, rfl⟩ | rfl | rfl := which <;> rfl
      obtain ⟨empty, damaged, used⟩ := keySlotStatus_used (k := (keyAt s i).stored) (c := c) (.inl w)
      refine ⟨fun e => keyCheck_unused (.inl w) (unusable_of e nofun nofun) (empty e),
        fun e => keyCheck_unused (.inl w) (unusable_of e nofun nofun) (damaged e), fun u => keyCheck_shut (.inl w) u,
        fun u isOpen other last => ?_, fun u isOpen stays => ?_⟩
      · refine keyCheck_lastMaster (keyPermitted_open (.inl w) _ isOpen) (used u) (identityTaken_windowed (.inl w)) ?_
          (takesLastMaster_iff.2 last)
        obtain ⟨r, rfl⟩ | rfl | rfl := which
        · rfl
        · rfl
        · exact absurd rfl other
      · refine keyCheck_passes (keyPermitted_open (.inl w) _ isOpen) (used u) (identityTaken_windowed (.inl w))
          fun checked => ?_
        obtain rfl | stays := stays
        · cases checked
        · exact Bool.eq_false_iff.2 fun h => stays (takesLastMaster_iff.1 h)
    case revoke =>
      subst e
      have slot : ∀ {k : KeyStored}, k.state ≠ .empty → keySlotStatus k .revoke = none := fun h => if_neg h
      have used : ∀ {k : KeyStored}, usable k = true → k.state ≠ .empty := fun u e => by
        rw [unusable_of e nofun nofun] at u
        cases u
      refine ⟨fun e => keyCheck_unused (.inr rfl) (unusable_of e nofun nofun) (if_pos e), fun e => ?_,
        fun u => keyCheck_shut (.inr rfl) u, fun u isOpen last => ?_, fun u isOpen stays => ?_⟩
      · have idle := unusable_of e nofun nofun
        refine keyCheck_passes (by simp [keyPermitted, idle]) (slot (by simp [e])) rfl fun _ => ?_
        refine Bool.eq_false_iff.2 fun h => ?_
        obtain ⟨⟨j, there⟩, _, none⟩ := takesLastMaster_iff.1 h
        by_cases same : j = i
        · subst same
          simp [activeMaster, e] at there
        · exact none j same there
      · exact keyCheck_lastMaster (keyPermitted_open (.inr rfl) _ isOpen) (slot (used u)) rfl rfl
          (takesLastMaster_iff.2 last)
      · exact keyCheck_passes (keyPermitted_open (.inr rfl) _ isOpen) (slot (used u)) rfl fun _ =>
          Bool.eq_false_iff.2 fun h => stays (takesLastMaster_iff.1 h)
  case sets =>
    refine ⟨fun x y r n p => ⟨rfl, rfl⟩, fun p => ⟨rfl, (nothingToChange_iff (.inr ⟨p, rfl⟩)).trans ?_⟩,
      fun r => ⟨rfl, (nothingToChange_iff (.inl rfl)).trans ?_⟩, ⟨rfl, (nothingToChange_iff (.inl rfl)).trans ?_⟩,
      ⟨rfl, (nothingToChange_iff (.inl rfl)).trans ?_⟩, rfl, rfl⟩
    · exact ⟨fun h => (congrArg KeyStored.profile h).symm, by rintro rfl; rfl⟩
    · exact ⟨fun h => (congrArg KeyStored.role h).symm, by rintro rfl; rfl⟩
    · exact ⟨fun h => (congrArg KeyStored.state h).symm, fun h => by rw [changed, ← h]⟩
    · exact ⟨fun h => (congrArg KeyStored.state h).symm, fun h => by rw [changed, ← h]⟩

end Sys2Proof.Machine

/-! Latch Units (04): what a qualified switch, a drive's limit and a held request's start do to an aperture. -/

namespace Sys2Proof.Machine

open Sys2Proof

theorem setLatch_twice (a : Aperture) (u v : LatchUnit) (s : State) : setLatch a v (setLatch a u s) = setLatch a v s := by
  simp [setLatch]

theorem setChild_twice (r : Rear) (c e : ChildLock) (s : State) : setChild r e (setChild r c s) = setChild r e s := by
  simp [setChild]

theorem childAt_setChild_same (r : Rear) (c : ChildLock) (s : State) : childAt (setChild r c s) r = c := by
  rw [childAt_setChild, if_pos rfl]

/-! ### A drive ended -/

/-- An aperture's record once its drive is over: the motor has used its credit and rests from now on. -/
def endedUnit (now : Nat) (d : Drive) (u : LatchUnit) : LatchUnit :=
  { u with drive := none, credit := u.credit - (now - d.start) / 1000, restFrom := now }

theorem finishDrive_some {a : Aperture} {d : Drive} {s : State} (e : (latchAt s a).drive = some d) (o : OpOutcome) :
    finishDrive a o s = tell d.requester d.tags a (fun _ => o) (setLatch a (endedUnit s.now d (latchAt s a)) s) := by
  simp only [finishDrive, endDrive, e]
  rfl

theorem told_of_chain {q : Requester} {t : Trigger} (e : q = .chain t) {g : List Tag} {n : Tag} (m : n ∈ g) (a : Aperture)
    (o : Tag → OpOutcome) (s : State) :
    { trigger := t, serial := n.serial, count := n.count, aperture := a, outcome := o n } ∈ (tell q g a o s).mail := by
  subst e
  rw [tell_eq_notices]
  exact List.mem_append_right _ (mem_notices m a o)

/-! ### A lock switch qualified (04, R72, R73) -/

theorem latchFault_setLatch (a : Aperture) (f : LatchFault) (u : LatchUnit) (s : State) :
    latchFault a f (setLatch a u s) = setLatch a { u with fault := f } (raise .latchFault s) := by
  rw [latchFault, latchAt_setLatch_same, setLatch_twice]
  rfl

theorem latchStateOf_ne_invalid {x : HeldTarget} (k : actuatorOf x = .latch) : latchStateOf x ≠ .invalid := by
  cases x <;> simp_all [actuatorOf, latchStateOf]

section
variable {a : Aperture} {q : LatchState} {first : Bool} {s : State}

theorem latchDriveTarget_some {u : LatchUnit} {v : Drive} (e : u.drive = some v) (k : actuatorOf v.target = .latch) :
    latchDriveTarget u = some v.target := by
  simp only [latchDriveTarget, e, k, if_true]

theorem latchDriveTarget_none {u : LatchUnit} (k : ∀ v, u.drive = some v → actuatorOf v.target ≠ .latch) :
    latchDriveTarget u = none := by
  unfold latchDriveTarget
  split
  · next v e => exact if_neg (k v e)
  · rfl

theorem latchHeldWaits_iff {u : LatchUnit} :
    latchHeldWaits u = true ↔ ∃ h, u.held = some h ∧ actuatorOf h.target = .latch := by
  unfold latchHeldWaits
  split
  · next h e => simp [e]
  · next e => simp [e]

section
variable {v : Drive} (e : (latchAt s a).drive = some v) (k : actuatorOf v.target = .latch)
include e k

theorem latchSensed_driven_invalid : latchSensed a .invalid first s =
    tell v.requester v.tags a (fun _ => .fault .sensor) (setLatch a
      { endedUnit s.now v (latchAt s a) with sensed := .invalid, fault := .sensor } (raise .latchFault s)) := by
  unfold latchSensed
  simp only [latchAt_setLatch_same, latchDriveTarget_some (u := { latchAt s a with sensed := .invalid }) e k, if_true]
  rw [latchFault_setLatch, finishDrive_some (d := v) (by rw [latchAt_setLatch_same]; exact e), latchAt_setLatch_same,
    setLatch_twice]
  rfl

theorem latchSensed_driven_met (valid : q ≠ .invalid) (met : q = latchStateOf v.target) : latchSensed a q first s =
    tell v.requester v.tags a (fun _ => .done) (setLatch a { endedUnit s.now v (latchAt s a) with sensed := q } s) := by
  have driven : (latchAt (setLatch a { latchAt s a with sensed := q } s) a).drive = some v := by
    rw [latchAt_setLatch_same]
    exact e
  unfold latchSensed
  simp only [latchAt_setLatch_same, latchDriveTarget_some (u := { latchAt s a with sensed := q }) e k, if_neg valid,
    if_pos met]
  rw [finishDrive_some driven, latchAt_setLatch_same, setLatch_twice]
  rfl

theorem latchSensed_driven_other (valid : q ≠ .invalid) (other : q ≠ latchStateOf v.target) :
    latchSensed a q first s = setLatch a { latchAt s a with sensed := q } s := by
  unfold latchSensed
  simp only [latchAt_setLatch_same, latchDriveTarget_some (u := { latchAt s a with sensed := q }) e k, if_neg valid,
    if_neg other]

end

section
variable (k : ∀ v, (latchAt s a).drive = some v → actuatorOf v.target ≠ .latch)
include k

theorem latchSensed_idle_invalid : latchSensed a .invalid false s =
    setLatch a { latchAt s a with sensed := .invalid, fault := .sensor } (raise .latchFault s) := by
  unfold latchSensed
  simp only [latchAt_setLatch_same, latchDriveTarget_none (u := { latchAt s a with sensed := .invalid }) k, if_true,
    Bool.false_eq_true, if_false, latchFault, setLatch_twice]
  rfl

theorem latchSensed_idle_first_invalid : latchSensed a .invalid true s =
    setLatch a { latchAt s a with sensed := .invalid, target := .unlocked, fault := .sensor } (raise .latchFault s) := by
  unfold latchSensed
  simp only [latchAt_setLatch_same, latchDriveTarget_none (u := { latchAt s a with sensed := .invalid }) k, if_true,
    latchFault, setLatch_twice]
  rfl

theorem latchSensed_idle_waits (valid : q ≠ .invalid) (waits : latchHeldWaits (latchAt s a) = true) :
    latchSensed a q false s = setLatch a { latchAt s a with sensed := q } s := by
  unfold latchSensed
  have waits' : latchHeldWaits { latchAt s a with sensed := q } = true := waits
  simp only [latchAt_setLatch_same, latchDriveTarget_none (u := { latchAt s a with sensed := q }) k, if_neg valid,
    waits', and_self, if_true]

theorem latchSensed_idle_takes (valid : q ≠ .invalid) (free : first = true ∨ latchHeldWaits (latchAt s a) = false) :
    latchSensed a q first s = setLatch a { latchAt s a with sensed := q, target := q } s := by
  unfold latchSensed
  have free' : ¬(first = false ∧ latchHeldWaits { latchAt s a with sensed := q } = true) := by
    rintro ⟨later, waits⟩
    have waits : latchHeldWaits (latchAt s a) = true := waits
    simp [later, waits] at free
  simp only [latchAt_setLatch_same, latchDriveTarget_none (u := { latchAt s a with sensed := q }) k, if_neg valid,
    if_neg free', setLatch_twice]

end

end

/-- A pair qualified, the tailgate's first one apart, goes to its latch alone. -/
theorem qualify_pair_due {a : Aperture} {s : State} (d : due true (s.inputs.pair.get a) = true)
    (later : a = .tg → (s.inputs.pair.get a).first = true) : qualify (.pair a) s =
      latchSensed a (sensedOf a (s.inputs.pair.get a).raw) (!(s.inputs.pair.get a).first)
        (setInputs { s.inputs with pair := s.inputs.pair.set a (qualified (s.inputs.pair.get a)) }
          (clockTo ((s.inputs.pair.get a).since + Times.switchTime) s)) := by
  rw [qualify_pair]
  dsimp only
  rw [if_pos d]
  refine if_neg ?_
  rintro ⟨tailgate, first⟩
  rw [later tailgate] at first
  cases first

/-! ### A child-lock switch qualified (04, R74) -/

theorem apertureRear_doorAperture (r : Rear) : apertureRear (doorAperture (rearDoorOf r)) = some r := by cases r <;> rfl

theorem sensedMeets_child {s : State} {r : Rear} {x : HeldTarget} (k : actuatorOf x = .child) :
    sensedMeets s (doorAperture (rearDoorOf r)) x = decide ((childAt s r).sensed = decide (x = .on)) := by
  simp only [sensedMeets, k, apertureRear_doorAperture]

theorem childHeldWaits_iff {u : LatchUnit} :
    childHeldWaits u = true ↔ ∃ h, u.held = some h ∧ actuatorOf h.target = .child := by
  unfold childHeldWaits
  split
  · next h e => simp [e]
  · next e => simp [e]

theorem qualify_childSwitch_due {r : Rear} {s : State} (d : due true (s.inputs.childSwitch.get r) = true) :
    qualify (.childSwitch r) s = childSensed r (s.inputs.childSwitch.get r).raw (!(s.inputs.childSwitch.get r).first)
      (setInputs { s.inputs with childSwitch := s.inputs.childSwitch.set r (qualified (s.inputs.childSwitch.get r)) }
        (clockTo ((s.inputs.childSwitch.get r).since + Times.switchTime) s)) := by
  rw [qualify_childSwitch]
  exact if_pos d

section
variable {r : Rear} {q first : Bool} {s : State}

theorem latchAt_setChild (r : Rear) (c : ChildLock) (s : State) (a : Aperture) :
    latchAt (setChild r c s) a = latchAt s a := rfl

theorem childSensed_driven {v : Drive} (e : (latchAt s (doorAperture (rearDoorOf r))).drive = some v)
    (k : actuatorOf v.target = .child) : childSensed r q first s =
      if q = decide (v.target = .on) then
        finishDrive (doorAperture (rearDoorOf r)) .done (setChild r { childAt s r with sensed := q } s)
      else setChild r { childAt s r with sensed := q } s := by
  unfold childSensed
  simp only [latchAt_setChild, e, k, if_true, sensedMeets_child k, childAt_setChild_same, decide_eq_true_eq]

/-- What the switch does with no child drive on its aperture. -/
theorem childSensed_idle (k : ∀ v, (latchAt s (doorAperture (rearDoorOf r))).drive = some v → actuatorOf v.target ≠ .child) :
    childSensed r q first s =
      if first = false ∧ childHeldWaits (latchAt s (doorAperture (rearDoorOf r))) = true then
        setChild r { childAt s r with sensed := q } s
      else setChild r { childAt s r with sensed := q, target := q } s := by
  unfold childSensed
  simp only [latchAt_setChild, childAt_setChild_same, setChild_twice]
  split
  · next v e => exact if_neg (k v e)
  · rfl

end

/-- Settles O19: the switch that shows the target ends the drive as done, an invalid one ends it with a fault; with no
drive on its actuator the target follows what is sensed, unless a request waits. -/
theorem qualifiedPairsEndDrives : Obligations.QualifiedPairsEndDrives := by
  refine ⟨fun a v s runs due e k later => ?driven, fun a s runs due k later => ?idle, fun r s runs due => ?child⟩
  case driven =>
    dsimp only
    refine ⟨_, exec_qualify (.pair a) runs, ?_⟩
    rw [qualify_pair_due due later]
    generalize hx : setInputs { s.inputs with pair := s.inputs.pair.set a (qualified (s.inputs.pair.get a)) }
      (clockTo ((s.inputs.pair.get a).since + Times.switchTime) s) = x
    have now : x.now = max s.now ((s.inputs.pair.get a).since + Times.switchTime) := by rw [← hx]; rfl
    have unit : latchAt x a = latchAt s a := by rw [← hx]; rfl
    have pair : x.inputs.pair.get a = qualified (s.inputs.pair.get a) := by
      rw [← hx]; exact Five.get_set_same _ _ _
    have value : (x.inputs.pair.get a).value = (s.inputs.pair.get a).raw ∧ (x.inputs.pair.get a).first = true := by
      rw [pair]; exact ⟨rfl, rfl⟩
    have e' : (latchAt x a).drive = some v := by rw [unit]; exact e
    rw [← now, ← unit]
    generalize sensedOf a (s.inputs.pair.get a).raw = q
    obtain ⟨value, first⟩ := value
    by_cases invalid : q = .invalid
    · subst invalid
      rw [latchSensed_driven_invalid e' k]
      refine ⟨by simp, by simpa using value, by simpa using first, by simp, by simp [endedUnit],
        fun met => absurd met.symm (latchStateOf_ne_invalid k), fun _ => ⟨by simp [endedUnit], by simp [endedUnit], by simp, ?_, fun t chain g mem => ?_⟩,
        fun valid => absurd rfl valid⟩
      · rw [tell_eq_notices]
        exact raised_raise .latchFault x
      · exact told_of_chain chain mem a _ _
    · by_cases met : q = latchStateOf v.target
      · rw [latchSensed_driven_met e' k invalid met]
        refine ⟨by simp, by simpa using value, by simpa using first, by simp, by simp [endedUnit],
          fun _ => ⟨by simp [endedUnit], by simp [endedUnit], by simp [endedUnit], fun t chain g mem => ?_⟩,
          fun bad => absurd bad invalid, fun _ other => absurd met other⟩
        exact told_of_chain chain mem a _ _
      · rw [latchSensed_driven_other e' k invalid met]
        exact ⟨rfl, value, first, by simp, by simp, fun same => absurd same met, fun bad => absurd bad invalid,
          fun _ _ => by simpa using e'⟩
  case idle =>
    dsimp only
    have meaning := exec_qualify (.pair a) runs
    rw [qualify_pair_due due later] at meaning
    rw [meaning]
    generalize hx : setInputs { s.inputs with pair := s.inputs.pair.set a (qualified (s.inputs.pair.get a)) }
      (clockTo ((s.inputs.pair.get a).since + Times.switchTime) s) = x
    have unit : latchAt x a = latchAt s a := by rw [← hx]; rfl
    rw [← unit] at k ⊢
    generalize sensedOf a (s.inputs.pair.get a).raw = q
    refine ⟨fun invalid first => ?_, fun invalid first => ?_, fun h valid first e h' => ?_, fun valid free => ?_⟩
    · subst invalid
      rw [first, Bool.not_true, latchSensed_idle_invalid k]
    · subst invalid
      rw [first, Bool.not_false, latchSensed_idle_first_invalid k]
    · rw [first, Bool.not_true, latchSensed_idle_waits k valid (latchHeldWaits_iff.2 ⟨h, e, h'⟩)]
    · rw [latchSensed_idle_takes k valid]
      refine free.imp (fun first => by rw [first]; rfl) fun other => ?_
      rw [Bool.eq_false_iff, Ne, latchHeldWaits_iff]
      rintro ⟨h, e, h'⟩
      exact other h e h'
  case child =>
    dsimp only
    have meaning := exec_qualify (.childSwitch r) runs
    rw [qualify_childSwitch_due due] at meaning
    rw [meaning]
    generalize hx : setInputs { s.inputs with childSwitch := s.inputs.childSwitch.set r (qualified (s.inputs.childSwitch.get r)) }
      (clockTo ((s.inputs.childSwitch.get r).since + Times.switchTime) s) = x
    have unit : latchAt x (doorAperture (rearDoorOf r)) = latchAt s (doorAperture (rearDoorOf r)) := by rw [← hx]; rfl
    have child : childAt x r = childAt s r := by rw [← hx]; rfl
    rw [← unit, ← child]
    generalize (s.inputs.childSwitch.get r).raw = q
    refine ⟨fun v e k => ⟨fun met => ?_, fun other => ?_⟩, fun k => ⟨fun h first e h' => ?_, fun free => ?_⟩⟩
    · rw [childSensed_driven e k, if_pos met,
        finishDrive_some (d := v) (s := setChild r { childAt x r with sensed := q } x) e]
      rfl
    · rw [childSensed_driven e k, if_neg other]
    · rw [childSensed_idle k, if_pos ⟨by rw [first]; rfl, childHeldWaits_iff.2 ⟨h, e, h'⟩⟩]
    · rw [childSensed_idle k, if_neg, setChild_twice]
      rintro ⟨later, waits⟩
      obtain ⟨h, e, h'⟩ := childHeldWaits_iff.1 waits
      obtain first | other := free
      · rw [first] at later
        cases later
      · exact other h e h'

end Sys2Proof.Machine

/-! Latch Units (04): held requests that start, requests deferred, a drive's limit, the credit. -/

namespace Sys2Proof.Machine

open Sys2Proof

/-! ### A held request starts (04, R71) -/

section
variable {a : Aperture} {h : Held} {s : State}

/-- The aperture with its held request taken up. -/
def unheld (a : Aperture) (s : State) : State := setLatch a { latchAt s a with held := none } s

theorem startHeld_release (r : h.target = .release) :
    startHeld a h s = (requestRelease h.requester h.tags (unheld a s)).1 := by
  obtain ⟨x, q, g⟩ := h
  cases r
  rfl

/-- What a held request other than a release starts as, where nothing denies it. -/
def aimed (a : Aperture) (x : HeldTarget) (s : State) : State :=
  if lowered s a x = x then s else setLatch a { latchAt s a with target := latchStateOf (lowered s a x) } s

variable (other : h.target ≠ .release)
include other

theorem startHeld_eq : startHeld a h s =
    match denial (unheld a s) a h.target with
    | some r => deny a h.requester h.tags r (unheld a s)
    | none =>
      if sensedMeets (aimed a h.target (unheld a s)) a (lowered (unheld a s) a h.target) then
        tell h.requester h.tags a metOutcome (aimed a h.target (unheld a s))
      else beginDrive a (lowered (unheld a s) a h.target) h.requester h.tags (aimed a h.target (unheld a s)) := by
  obtain ⟨x, q, g⟩ := h
  cases x with
  | release => exact absurd rfl other
  | _ => rfl

theorem startHeld_denied {r : Reason} (d : denial (unheld a s) a h.target = some r) :
    startHeld a h s = deny a h.requester h.tags r (unheld a s) := by
  rw [startHeld_eq other, d]

theorem startHeld_plain (d : denial (unheld a s) a h.target = none)
    (full : lowered (unheld a s) a h.target = h.target) : startHeld a h s =
      if sensedMeets (unheld a s) a h.target then tell h.requester h.tags a metOutcome (unheld a s)
      else beginDrive a h.target h.requester h.tags (unheld a s) := by
  rw [startHeld_eq other, d]
  dsimp only
  rw [aimed, full, if_pos rfl]

theorem startHeld_lowered (d : denial (unheld a s) a h.target = none)
    (less : lowered (unheld a s) a h.target = .locked) (ne : h.target ≠ .locked) : startHeld a h s =
      let y := setLatch a { latchAt (unheld a s) a with target := .locked } (unheld a s)
      if sensedMeets y a .locked then tell h.requester h.tags a metOutcome y
      else beginDrive a .locked h.requester h.tags y := by
  rw [startHeld_eq other, d]
  dsimp only
  rw [aimed, less, if_neg (Ne.symm ne)]
  rfl

end

section
variable {a : Aperture} {h : Held} {s : State} (e : (latchAt s a).held = some h)
include e

theorem heldStart_supply (low : s.vehicle.supplyHold = true) : heldStart a s = s := by
  simp only [heldStart, e, low, if_true]

variable (supplied : s.vehicle.supplyHold = false)
include supplied

theorem heldStart_release (r : h.target = .release) : heldStart a s = startHeld a h s := by
  simp only [heldStart, e, supplied, Bool.false_eq_true, if_false, r, if_true]

variable (other : h.target ≠ .release)
include other

theorem heldStart_driving (d : (latchAt s a).drive ≠ none) : heldStart a s = s := by
  simp only [heldStart, e, supplied, Bool.false_eq_true, if_false, if_neg other, Option.isSome_iff_ne_none.2 d, if_true]

theorem heldStart_starts (d : (latchAt s a).drive = none) :
    heldStart a s = startHeld a h (clockTo (creditReady (latchAt s a)) s) := by
  simp only [heldStart, e, supplied, Bool.false_eq_true, if_false, if_neg other, d, Option.isSome_none]

end

theorem sensedMeets_locked (s : State) (a : Aperture) :
    sensedMeets s a .locked = decide ((latchAt s a).sensed = .locked) := rfl

theorem lowered_plain {s : State} {a : Aperture} {x : HeldTarget} (h : x ≠ .deadlocked ∨ (a ≠ .tg ∧ allClosed s = true)) :
    lowered s a x = x := by
  cases x with
  | deadlocked =>
    obtain h | ⟨door, closed⟩ := h
    · exact absurd rfl h
    · simp [lowered, door, closed]
  | _ => rfl

theorem lowered_deadlocked {s : State} {a : Aperture} (h : a = .tg ∨ allClosed s = false) :
    lowered s a .deadlocked = .locked := by
  unfold lowered
  dsimp only
  split
  · rfl
  · next door => rw [h.resolve_left door]; rfl

/-! ### Which deferred request may be taken (04, R67) -/

theorem discardOwn_eq (t : Trigger) (g : Tag) (a : Aperture) (s : State) : discardOwn t g a s =
    { s with mail := s.mail.filter fun n => !decide (n.trigger = t ∧ n.serial = g.serial ∧ n.count = g.count ∧
      n.aperture = a ∧ n.outcome = .overridden) } := by
  unfold discardOwn
  congr
  funext n
  simp only [Bool.decide_and, Bool.and_assoc]

theorem mayTake_chain_latch {s : State} {a : Aperture} {x : HeldTarget} (k : actuatorOf x = .latch) (t : Trigger) (g : Tag) :
    mayTake s (.chain a x t g) = pairQualified s a := by
  simp only [mayTake, chainDeferred, k, Bool.not_not]

theorem mayTake_chain_child {s : State} {r : Rear} {x : HeldTarget} (k : actuatorOf x = .child) (t : Trigger) (g : Tag) :
    mayTake s (.chain (doorAperture (rearDoorOf r)) x t g) = childQualified s r := by
  simp only [mayTake, chainDeferred, k, apertureRear_doorAperture, Option.any_some, Bool.not_not]

/-- Settles O36. -/
theorem waitingLatchRequestsStart : Obligations.WaitingLatchRequestsStart := by
  have runs : ∀ {a : Aperture} {s : State}, s.power = .running →
      exec (.latchHeldStart a) s = .next (finishEvent (heldStart a s)) :=
    fun {a _} power => event_running (fun s => finishEvent (heldStart a s)) power
  refine ⟨?settled, ?held, ?deferred, ?chain, ?may⟩
  case settled =>
    intro a h s power rests e other idle supplied s1 allowed full unmet
    rw [runs power, heldStart_starts e supplied other idle, startHeld_plain other allowed full]
    have drives : (if sensedMeets s1 a h.target then tell h.requester h.tags a metOutcome s1
        else beginDrive a h.target h.requester h.tags s1) = beginDrive a h.target h.requester h.tags s1 := by
      rw [unmet]
      rfl
    refine congrArg Host.Outcome.next ((congrArg finishEvent drives).trans ?_)
    exact finishEvent_settled (rests.of_runs rests.1 rfl)
  case held =>
    intro a h s power e
    refine ⟨fun low => ?_, fun supplied r => ?_, fun supplied other driven => ?_, fun supplied other idle => ?_⟩
    · rw [runs power, heldStart_supply e low]
    · rw [runs power, heldStart_release e supplied r, startHeld_release r]
      rfl
    · rw [runs power, heldStart_driving e supplied other driven]
    · intro s1 s2
      rw [runs power, heldStart_starts e supplied other idle]
      refine ⟨fun r denied => ?_, fun allowed high met => ?_, fun allowed dead low => ⟨fun sensed => ?_, fun sensed => ?_⟩⟩
      · rw [startHeld_denied other denied]
        rfl
      · rw [startHeld_plain other allowed (lowered_plain high)]
        exact congrArg (fun x => Host.Outcome.next (finishEvent x)) (if_pos met)
      · have less : lowered s1 a h.target = .locked := by rw [dead]; exact lowered_deadlocked low
        rw [startHeld_lowered other allowed less (by rw [dead]; nofun)]
        refine congrArg (fun x => Host.Outcome.next (finishEvent x)) (if_pos ?_)
        rw [sensedMeets_locked, latchAt_setLatch_same]
        refine decide_eq_true ?_
        rw [unheld, latchAt_setLatch_same]
        exact sensed
      · have less : lowered s1 a h.target = .locked := by rw [dead]; exact lowered_deadlocked low
        rw [startHeld_lowered other allowed less (by rw [dead]; nofun)]
        refine congrArg (fun x => Host.Outcome.next (finishEvent x)) (if_neg ?_)
        rw [sensedMeets_locked, latchAt_setLatch_same, decide_eq_true_eq]
        rw [unheld, latchAt_setLatch_same]
        exact sensed
  case deferred =>
    intro s power
    have takes : exec .deferredRequestTake s = .next (deferredTake s) := event_running _ power
    refine ⟨fun pre post x e waits may => ?_, fun waits => ?_⟩
    · rw [takes, deferredTake, e, firstTakeable_some waits may]
    · rw [takes, deferredTake, firstTakeable_none waits]
  case chain =>
    intro a x t g s
    exact discardOwn_eq t g a _
  case may =>
    intro s
    refine ⟨fun d => by simp [mayTake], fun f l => by simp [mayTake], by simp [mayTake, and_assoc], by simp [mayTake],
      fun a x t g k => by rw [mayTake_chain_latch k], fun r x t g k => by rw [mayTake_chain_child k],
      fun t g => by simp [mayTake, chainDeferred, actuatorOf]⟩

/-! ### A drive's limit (04, R75, R76) -/

section
variable {a : Aperture} {v : Drive} {s : State} (e : (latchAt s a).drive = some v)
include e

theorem driveLimit_latch (k : actuatorOf v.target ≠ .child) : driveLimit a s =
    latchFault a .jam (tell v.requester v.tags a (fun _ => .fault .jam)
      (setLatch a (endedUnit (max s.now (v.start + ms 300)) v (latchAt s a)) (clockTo (v.start + ms 300) s))) := by
  have ended := finishDrive_some (s := clockTo (v.start + ms 300) s) e (.fault .jam)
  have form : driveLimit a s = latchFault a .jam (finishDrive a (.fault .jam) (clockTo (v.start + ms 300) s)) := by
    unfold driveLimit
    rw [e]
    dsimp only
    split
    · next c => exact absurd c k
    · rfl
  rw [form, ended]
  rfl

theorem driveLimit_child (k : actuatorOf v.target = .child) : driveLimit a s =
    let x := tell v.requester v.tags a (fun _ => .fault .jam)
      (setLatch a (endedUnit (max s.now (v.start + ms 400)) v (latchAt s a)) (clockTo (v.start + ms 400) s))
    match apertureRear a with
    | some r => raise .latchFault (setChild r { childAt x r with jam := true } x)
    | none => x := by
  have ended := finishDrive_some (s := clockTo (v.start + ms 400) s) e (.fault .jam)
  unfold driveLimit
  simp only [e, k]
  exact congrArg (fun x => match apertureRear a with
    | some r => raise .latchFault (setChild r { childAt x r with jam := true } x)
    | none => x) ended

end

/-- Settles O37. -/
theorem drivesJamAtTheirLimitAndRestRefills : Obligations.DrivesJamAtTheirLimitAndRestRefills := by
  refine ⟨fun a v s power e => ⟨driveLimit a s, event_running (fun s => finishEvent (driveLimit a s)) power, ?_⟩, fun u now => ⟨fun idle => ?_, fun d e => ?_⟩⟩
  · by_cases k : actuatorOf v.target = .child
    · rw [driveLimit_child e k]
      dsimp only
      cases rear : apertureRear a with
      | none =>
        refine ⟨by simp [endedUnit], by simp [endedUnit], by simp [endedUnit], by simp [endedUnit], fun latch => absurd k latch,
          fun _ => ⟨by simp, nofun⟩, fun t chain g mem => told_of_chain chain mem a _ _⟩
      | some r =>
        have unit : ∀ y c, latchAt (raise .latchFault (setChild r c y)) a = latchAt y a := fun _ _ => rfl
        have child : ∀ y c, childAt (raise .latchFault (setChild r c y)) r = c := fun y c => childAt_setChild_same r c y
        have same : childAt (tell v.requester v.tags a (fun _ => .fault .jam)
            (setLatch a (endedUnit (max s.now (v.start + ms 400)) v (latchAt s a)) (clockTo (v.start + ms 400) s))) r =
              childAt s r := by
          rw [tell_eq_notices]
          rfl
        refine ⟨by simp [unit, endedUnit], by simp [unit, endedUnit], by simp [unit, endedUnit], by simp [unit, endedUnit], fun latch => absurd k latch,
          fun _ => ⟨by simp, ?_⟩, fun t chain g mem => told_of_chain chain mem a _ _⟩
        rintro _ ⟨⟩
        exact ⟨by simp [child], by simp only [child, same], raised_raise .latchFault _⟩
    · rw [driveLimit_latch e k]
      have unit : ∀ y, latchAt (latchFault a .jam y) a = { latchAt y a with fault := .jam } :=
        fun y => latchAt_setLatch_same a _ _
      refine ⟨by simp [unit, endedUnit], by simp [unit, endedUnit], by simp [unit, endedUnit],
        by simp [unit, endedUnit], fun _ => ⟨by simp, by simp [unit], raised_raise .latchFault _⟩, fun child => absurd child k,
        fun t chain g mem => told_of_chain chain mem a _ _⟩
  · simp only [creditOf, idle, Option.isSome_none]
    rfl
  · simp only [creditOf, e, Option.isSome_some, if_true]

end Sys2Proof.Machine

/-! Latch requests (04, R60 to R71): what a request replaces, joins or starts, what is held, the tailgate's release. -/

namespace Sys2Proof.Machine

open Sys2Proof

/-! ### Earlier requests replaced (04, R62) -/

/-- An aperture's record once a drive of the new request's actuator is stopped. -/
def driveCleared (now : Nat) (y : HeldTarget) (u : LatchUnit) : LatchUnit :=
  match u.drive with
  | some d => if actuatorOf d.target = actuatorOf y then endedUnit now d u else u
  | none => u

/-- The record once a held request of that actuator, or a held release, is dropped also. -/
def cleared (now : Nat) (y : HeldTarget) (u : LatchUnit) : LatchUnit :=
  match u.held with
  | some h =>
    if actuatorOf h.target = actuatorOf y || h.target = .release then { driveCleared now y u with held := none }
    else driveCleared now y u
  | none => driveCleared now y u

/-- Whom the two are told. -/
def clearedTold (a : Aperture) (y : HeldTarget) (u : LatchUnit) : List Notice :=
  (match u.drive with
   | some d => if actuatorOf d.target = actuatorOf y then notices d.requester d.tags a fun _ => .overridden else []
   | none => []) ++
  match u.held with
  | some h =>
    if actuatorOf h.target = actuatorOf y || h.target = .release then notices h.requester h.tags a fun _ => .overridden
    else []
  | none => []

@[simp] theorem driveCleared_held (now : Nat) (y : HeldTarget) (u : LatchUnit) : (driveCleared now y u).held = u.held := by
  unfold driveCleared
  split
  · split <;> rfl
  · rfl

/-- The first half of a replacement: the drive of the new request's actuator is stopped. -/
def driveReplaced (a : Aperture) (y : HeldTarget) (s : State) : State :=
  match (latchAt s a).drive with
  | some d => if actuatorOf d.target = actuatorOf y then overrideDrive a s else s
  | none => s

/-- Its second half: the held request of that actuator is dropped, and a held release. -/
def heldReplaced (a : Aperture) (y : HeldTarget) (s : State) : State :=
  match (latchAt s a).held with
  | some h => if actuatorOf h.target = actuatorOf y || h.target = .release then dropHeld a s else s
  | none => s

theorem replaceEarlier_eq (a : Aperture) (y : HeldTarget) (s : State) :
    replaceEarlier a y s = heldReplaced a y (driveReplaced a y s) := rfl

theorem driveReplaced_channel (a : Aperture) (y : HeldTarget) (s : State) : driveReplaced a y s =
    withChannel a (driveCleared s.now y (latchAt s a)) s.latches.child (s.mail ++ match (latchAt s a).drive with
     | some d => if actuatorOf d.target = actuatorOf y then notices d.requester d.tags a fun _ => .overridden else []
     | none => []) s := by
  unfold driveReplaced driveCleared
  cases e : (latchAt s a).drive with
  | none => rw [List.append_nil]; exact (withChannel_self a s).symm
  | some d =>
    dsimp only
    by_cases k : actuatorOf d.target = actuatorOf y
    · rw [if_pos k, if_pos k, if_pos k]
      exact overrideDrive_channel e
    · rw [if_neg k, if_neg k, if_neg k, List.append_nil]
      exact (withChannel_self a s).symm

theorem replaceEarlier_channel (a : Aperture) (y : HeldTarget) (s : State) : replaceEarlier a y s =
    withChannel a (cleared s.now y (latchAt s a)) s.latches.child (s.mail ++ clearedTold a y (latchAt s a)) s := by
  rw [replaceEarlier_eq, driveReplaced_channel]
  unfold heldReplaced cleared clearedTold
  simp only [latchAt_withChannel, driveCleared_held, dropHeld_channel, withChannel_child, withChannel_mail,
    withChannel_twice]
  cases (latchAt s a).held with
  | none => dsimp only; rw [List.append_nil]
  | some h =>
    dsimp only
    split
    · rw [List.append_assoc]
    · rw [List.append_nil]

/-! ### What the replaced record still holds -/

section
variable {now : Nat} {y : HeldTarget} {u : LatchUnit}

theorem cleared_eq (now : Nat) (y : HeldTarget) (u : LatchUnit) :
    cleared now y u = { driveCleared now y u with held := (cleared now y u).held } := by
  unfold cleared
  split
  · split <;> rfl
  · rfl

theorem cleared_drive : (cleared now y u).drive = (driveCleared now y u).drive := by rw [cleared_eq]
theorem cleared_credit : (cleared now y u).credit = (driveCleared now y u).credit := by rw [cleared_eq]
theorem cleared_restFrom : (cleared now y u).restFrom = (driveCleared now y u).restFrom := by rw [cleared_eq]

@[simp] theorem cleared_sensed : (cleared now y u).sensed = u.sensed := by
  rw [cleared_eq]
  unfold driveCleared
  split
  · split <;> rfl
  · rfl

theorem driveCleared_mine {d : Drive} (e : u.drive = some d) (k : actuatorOf d.target = actuatorOf y) :
    driveCleared now y u = endedUnit now d u := by
  unfold driveCleared
  rw [e]
  exact if_pos k

theorem driveCleared_other {d : Drive} (e : u.drive = some d) (k : actuatorOf d.target ≠ actuatorOf y) :
    driveCleared now y u = u := by
  unfold driveCleared
  rw [e]
  exact if_neg k

theorem driveCleared_idle (e : u.drive = none) : driveCleared now y u = u := by
  unfold driveCleared
  rw [e]

theorem cleared_drive_free (free : ∀ d, u.drive = some d → actuatorOf d.target = actuatorOf y) :
    (cleared now y u).drive = none := by
  rw [cleared_drive]
  cases e : u.drive with
  | none => rw [driveCleared_idle e, e]
  | some d => rw [driveCleared_mine e (free d e)]; rfl

theorem cleared_drive_kept (busy : ¬∀ d, u.drive = some d → actuatorOf d.target = actuatorOf y) :
    (cleared now y u).drive = u.drive := by
  rw [cleared_drive]
  cases e : u.drive with
  | none => rw [driveCleared_idle e, e]
  | some d =>
    rw [driveCleared_other e, e]
    intro mine
    refine busy fun x ex => ?_
    rw [e] at ex
    cases ex
    exact mine

theorem cleared_held_kept {h : Held} (e : u.held = some h) (other : actuatorOf h.target ≠ actuatorOf y)
    (latch : h.target ≠ .release) : (cleared now y u).held = some h := by
  unfold cleared
  simp [e, other, latch]

theorem cleared_held_mine {h : Held} (e : u.held = some h) (k : actuatorOf h.target = actuatorOf y ∨ h.target = .release) :
    (cleared now y u).held = none := by
  unfold cleared
  simp [e, k]

theorem cleared_held_dropped
    (k : ∀ h, u.held = some h → actuatorOf h.target = actuatorOf y ∨ h.target = .release) :
    (cleared now y u).held = none := by
  cases e : u.held with
  | none => simp [cleared, e]
  | some h => exact cleared_held_mine e (k h e)

/-- What is still held is for the other actuator, and stood before. -/
theorem of_cleared_held {h : Held} (e : (cleared now y u).held = some h) :
    u.held = some h ∧ actuatorOf h.target ≠ actuatorOf y ∧ h.target ≠ .release := by
  cases k : u.held with
  | none => rw [cleared_held_dropped (by rw [k]; nofun)] at e; cases e
  | some x =>
    by_cases mine : actuatorOf x.target = actuatorOf y ∨ x.target = .release
    · rw [cleared_held_mine k mine] at e; cases e
    · rw [not_or] at mine
      rw [cleared_held_kept k mine.1 mine.2] at e
      cases e
      exact ⟨rfl, mine⟩

theorem creditOf_cleared : creditOf (cleared now y u) now =
    match u.drive with
    | none => creditOf u now
    | some d =>
      if actuatorOf d.target = actuatorOf y then min 3000 (u.credit - (now - d.start) / 1000) else u.credit := by
  have parts : creditOf (cleared now y u) now = creditOf (driveCleared now y u) now := by
    unfold creditOf
    rw [cleared_drive, cleared_credit, cleared_restFrom]
  rw [parts]
  cases e : u.drive with
  | none => rw [driveCleared_idle e]
  | some d =>
    dsimp only
    by_cases k : actuatorOf d.target = actuatorOf y
    · rw [if_pos k, driveCleared_mine e k]
      simp [creditOf, endedUnit, Times.creditMax]
    · rw [if_neg k, driveCleared_other e k]
      simp [creditOf, e]

variable {a : Aperture} {t : Trigger} {n : Tag}

theorem clearedTold_drive {d : Drive} (e : u.drive = some d) (k : actuatorOf d.target = actuatorOf y)
    (chain : d.requester = .chain t) (m : n ∈ d.tags) :
    { trigger := t, serial := n.serial, count := n.count, aperture := a, outcome := .overridden } ∈ clearedTold a y u := by
  unfold clearedTold
  rw [e]
  dsimp only
  rw [if_pos k, chain]
  exact List.mem_append_left _ (mem_notices m a _)

theorem clearedTold_held {h : Held} (e : u.held = some h) (k : actuatorOf h.target = actuatorOf y ∨ h.target = .release)
    (chain : h.requester = .chain t) (m : n ∈ h.tags) :
    { trigger := t, serial := n.serial, count := n.count, aperture := a, outcome := .overridden } ∈ clearedTold a y u := by
  unfold clearedTold
  rw [e]
  dsimp only
  rw [if_pos (by simpa using k), chain]
  exact List.mem_append_right _ (mem_notices m a _)

end

/-! ### A target taken up (04, R61) -/

/-- The record with the new target, and without its fault. -/
def targeted (y : HeldTarget) (u : LatchUnit) : LatchUnit :=
  match actuatorOf y with
  | .latch => { u with target := latchStateOf y, fault := .none }
  | _ => u

theorem latchAt_takeTarget (a : Aperture) (y : HeldTarget) (s : State) :
    latchAt (takeTarget a y s) a = targeted y (latchAt s a) := by
  unfold takeTarget targeted
  split
  · next k => simp only [k]; exact latchAt_setLatch_same a _ s
  · next k => simp only [k]; split <;> rfl
  · next k => simp only [k]

theorem takeTarget_latch {y : HeldTarget} (k : actuatorOf y = .latch) (a : Aperture) (s : State) :
    takeTarget a y s = setLatch a { latchAt s a with target := latchStateOf y, fault := .none } s := by
  simp only [takeTarget, k]

theorem takeTarget_child {y : HeldTarget} (k : actuatorOf y = .child) {a : Aperture} {r : Rear} (e : apertureRear a = some r)
    (s : State) : takeTarget a y s = setChild r { childAt s r with target := decide (y = .on), jam := false } s := by
  simp only [takeTarget, k, e]

@[simp] theorem takeTarget_mail (a : Aperture) (y : HeldTarget) (s : State) : (takeTarget a y s).mail = s.mail := by
  unfold takeTarget
  split
  · rfl
  · split <;> rfl
  · rfl

@[simp] theorem takeTarget_link (a : Aperture) (y : HeldTarget) (s : State) : (takeTarget a y s).link = s.link := by
  unfold takeTarget
  split
  · rfl
  · split <;> rfl
  · rfl

@[simp] theorem targeted_sensed (y : HeldTarget) (u : LatchUnit) : (targeted y u).sensed = u.sensed := by
  unfold targeted
  split <;> rfl

theorem targeted_drive (y : HeldTarget) (u : LatchUnit) : (targeted y u).drive = u.drive := by
  unfold targeted
  split <;> rfl

theorem targeted_held (y : HeldTarget) (u : LatchUnit) : (targeted y u).held = u.held := by
  unfold targeted
  split <;> rfl

theorem targeted_credit (y : HeldTarget) (u : LatchUnit) : (targeted y u).credit = u.credit := by
  unfold targeted
  split <;> rfl

theorem targeted_restFrom (y : HeldTarget) (u : LatchUnit) : (targeted y u).restFrom = u.restFrom := by
  unfold targeted
  split <;> rfl

theorem creditOf_targeted (y : HeldTarget) (u : LatchUnit) (now : Nat) : creditOf (targeted y u) now = creditOf u now := by
  simp only [creditOf, targeted_drive, targeted_credit, targeted_restFrom]

theorem childAt_takeTarget_sensed (a : Aperture) (y : HeldTarget) (s : State) (r : Rear) :
    (childAt (takeTarget a y s) r).sensed = (childAt s r).sensed := by
  unfold takeTarget
  split
  · rfl
  · split
    · next x e =>
      rw [childAt_setChild]
      split
      · next same => rw [same]
      · rfl
    · rfl
  · rfl

theorem sensedMeets_latch {y : HeldTarget} (k : actuatorOf y = .latch) (s : State) (a : Aperture) :
    sensedMeets s a y = decide ((latchAt s a).sensed = latchStateOf y) := by
  simp only [sensedMeets, k]

theorem sensedMeets_rear {y : HeldTarget} (k : actuatorOf y = .child) {a : Aperture} {r : Rear} (e : apertureRear a = some r)
    (s : State) : sensedMeets s a y = decide ((childAt s r).sensed = decide (y = .on)) := by
  simp only [sensedMeets, k, e]

theorem sensedMeets_of_sensed {s t : State} {a : Aperture} {y : HeldTarget}
    (latch : (latchAt t a).sensed = (latchAt s a).sensed) (child : ∀ r, (childAt t r).sensed = (childAt s r).sensed) :
    sensedMeets t a y = sensedMeets s a y := by
  unfold sensedMeets
  split
  · rw [latch]
  · split
    · rw [child]
    · rfl
  · rfl

/-! ### A request held (04, R70) -/

/-- The target an aperture falls back to when its held request is dropped. -/
def fallback (free : Nat) (u : LatchUnit) : LatchState :=
  match u.held with
  | some h =>
    match actuatorOf h.target with
    | .latch => latchTargetFrom u.sensed free
    | _ => u.target
  | none => u.target

/-- Who is told that the held request is dropped. -/
def heldTold (a : Aperture) (u : LatchUnit) : List Notice :=
  match u.held with
  | some h => notices h.requester h.tags a fun _ => .overridden
  | none => []

/-- The held request replaced, before any flag. -/
def heldAnew (a : Aperture) (y : HeldTarget) (q : Requester) (g : List Tag) (s : State) : State :=
  let x := match (latchAt s a).held with
    | none => s
    | some h => resetTarget a (actuatorOf h.target) (dropHeld a s)
  setLatch a { latchAt x a with held := some { target := y, requester := q, tags := g } } x

theorem hold_eq (a : Aperture) (y : HeldTarget) (q : Requester) (g : List Tag) (s : State) : hold a y q g s =
    if s.vehicle.supplyHold || creditOf (latchAt s a) s.now < 300 then raise .powerHold (heldAnew a y q g s)
    else heldAnew a y q g s := rfl

theorem latchAt_resetTarget (a : Aperture) (k : Actuator) (s : State) : latchAt (resetTarget a k s) a =
    { latchAt s a with target := match k with | .latch => latchTargetFrom (latchAt s a).sensed s.free | _ => (latchAt s a).target } := by
  cases k with
  | latch => exact latchAt_setLatch_same a _ _
  | child => unfold resetTarget; dsimp only; split <;> rfl
  | release => rfl

@[simp] theorem resetTarget_mail (a : Aperture) (k : Actuator) (s : State) : (resetTarget a k s).mail = s.mail := by
  cases k with
  | child => unfold resetTarget; dsimp only; split <;> rfl
  | _ => rfl

@[simp] theorem resetTarget_link (a : Aperture) (k : Actuator) (s : State) : (resetTarget a k s).link = s.link := by
  cases k with
  | child => unfold resetTarget; dsimp only; split <;> rfl
  | _ => rfl

section
variable (a : Aperture) (y : HeldTarget) (q : Requester) (g : List Tag) (s : State)

theorem heldAnew_some {h : Held} (e : (latchAt s a).held = some h) : heldAnew a y q g s =
    setLatch a { latchAt s a with held := some { target := y, requester := q, tags := g }, target := fallback s.free (latchAt s a) }
      (resetTarget a (actuatorOf h.target) (dropHeld a s)) := by
  simp only [heldAnew, e, latchAt_resetTarget, dropHeld_channel, latchAt_withChannel, fallback]
  rfl

theorem heldAnew_none (e : (latchAt s a).held = none) : heldAnew a y q g s =
    setLatch a { latchAt s a with held := some { target := y, requester := q, tags := g } } s := by
  simp only [heldAnew, e]

theorem latchAt_heldAnew : latchAt (heldAnew a y q g s) a =
    { latchAt s a with held := some { target := y, requester := q, tags := g }, target := fallback s.free (latchAt s a) } := by
  cases e : (latchAt s a).held with
  | none => rw [heldAnew_none _ _ _ _ _ e, latchAt_setLatch_same, fallback, e]
  | some h => rw [heldAnew_some _ _ _ _ _ e, latchAt_setLatch_same]

theorem heldAnew_mail : (heldAnew a y q g s).mail = s.mail ++ heldTold a (latchAt s a) := by
  cases e : (latchAt s a).held with
  | none => rw [heldAnew_none _ _ _ _ _ e, heldTold, e]; exact (List.append_nil _).symm
  | some h =>
    rw [heldAnew_some _ _ _ _ _ e, heldTold, e]
    simp [dropHeld_channel, e]

theorem heldAnew_link : (heldAnew a y q g s).link = s.link := by
  cases e : (latchAt s a).held with
  | none => rw [heldAnew_none _ _ _ _ _ e]; rfl
  | some h =>
    rw [heldAnew_some _ _ _ _ _ e]
    simp [dropHeld_channel, withChannel]

theorem heldAnew_child : (heldAnew a y q g s).latches.child =
    childReturned a ((latchAt s a).held.any fun h => actuatorOf h.target = .child) s.latches.child := by
  cases e : (latchAt s a).held with
  | none => rw [heldAnew_none _ _ _ _ _ e]; exact (childReturned_false a _).symm
  | some h =>
    rw [heldAnew_some _ _ _ _ _ e, dropHeld_channel]
    cases k : actuatorOf h.target with
    | child => rw [resetTarget_child]; simp [k, withChannel]
    | latch => simp [k, childReturned_false]; rfl
    | release => simp [k, childReturned_false]; rfl

theorem latchAt_hold : latchAt (hold a y q g s) a =
    { latchAt s a with held := some { target := y, requester := q, tags := g }, target := fallback s.free (latchAt s a) } := by
  rw [hold_eq, ← latchAt_heldAnew a y q g s]
  split <;> rfl

theorem hold_mail : (hold a y q g s).mail = s.mail ++ heldTold a (latchAt s a) := by
  rw [hold_eq, ← heldAnew_mail a y q g s]
  split <;> rfl

theorem hold_child : (hold a y q g s).latches.child =
    childReturned a ((latchAt s a).held.any fun h => actuatorOf h.target = .child) s.latches.child := by
  rw [hold_eq, ← heldAnew_child a y q g s]
  split <;> rfl

theorem hold_raised (low : creditOf (latchAt s a) s.now < 300 ∨ s.vehicle.supplyHold = true) :
    raised .powerHold (hold a y q g s) = true := by
  rw [hold_eq, if_pos (by simpa [or_comm] using low)]
  exact raised_raise .powerHold _

theorem hold_link (enough : 300 ≤ creditOf (latchAt s a) s.now) (supplied : s.vehicle.supplyHold = false) :
    (hold a y q g s).link = s.link := by
  rw [hold_eq, if_neg (by simp [supplied, Nat.not_lt.2 enough])]
  exact heldAnew_link a y q g s

end

end Sys2Proof.Machine

/-! Latch requests taken (04, R60 to R71). -/

namespace Sys2Proof.Machine

open Sys2Proof

theorem seekDrive_drives {a : Aperture} {y : HeldTarget} {s : State} (idle : (latchAt s a).drive = none)
    (enough : 300 ≤ creditOf (latchAt s a) s.now) (supplied : s.vehicle.supplyHold = false) (q : Requester) (g : List Tag) :
    seekDrive a y q g s = (beginDrive a y q g s, .driving) := by
  unfold seekDrive
  exact if_pos (by simp [idle, supplied]; exact enough)

theorem seekDrive_holds {a : Aperture} {y : HeldTarget} {s : State}
    (waits : (latchAt s a).drive ≠ none ∨ creditOf (latchAt s a) s.now < 300 ∨ s.vehicle.supplyHold = true)
    (q : Requester) (g : List Tag) : seekDrive a y q g s = (hold a y q g s, .held) := by
  unfold seekDrive
  refine if_neg ?_
  simp only [Bool.and_eq_true, Option.isNone_iff_eq_none, decide_eq_true_eq, Bool.not_eq_true', not_and]
  intro starts supplied
  obtain ⟨idle, enough⟩ := starts
  have enough : 300 ≤ creditOf (latchAt s a) s.now := enough
  obtain driving | low | hold := waits
  · exact driving idle
  · omega
  · rw [supplied] at hold
    cases hold

/-! ### Which way a request goes -/

/-- The state in which a new target is taken up: what it replaces is gone. -/
def renewed (a : Aperture) (y : HeldTarget) (s : State) : State := takeTarget a y (replaceEarlier a y s)

section
variable (a : Aperture) (y : HeldTarget) (q : Requester) (g : List Tag) (s : State)

/-- A request that joins nothing. -/
def takeAnew : State × Answer :=
  if sensedMeets (renewed a y s) a y then (tell q g a metOutcome (renewed a y s), .done)
  else seekDrive a y q g (renewed a y s)

/-- A request that joins no drive: it joins the held request, or stands alone. -/
def takeBeside : State × Answer :=
  match (latchAt s a).held with
  | some h =>
    if h.target = y && h.requester = q then
      (takeTarget a y (setLatch a { latchAt s a with held := some { h with tags := h.tags ++ g } } s), .held)
    else takeAnew a y q g s
  | none => takeAnew a y q g s

theorem latchAt_renewed : latchAt (renewed a y s) a = targeted y (cleared s.now y (latchAt s a)) := by
  rw [renewed, latchAt_takeTarget, replaceEarlier_channel, latchAt_withChannel]

@[simp] theorem renewed_mail : (renewed a y s).mail = s.mail ++ clearedTold a y (latchAt s a) := by
  rw [renewed, takeTarget_mail, replaceEarlier_channel, withChannel_mail]

@[simp] theorem renewed_link : (renewed a y s).link = s.link := by
  rw [renewed, takeTarget_link, replaceEarlier_channel]
  rfl

@[simp] theorem renewed_now : (renewed a y s).now = s.now := by
  rw [renewed, replaceEarlier_channel]
  simp

@[simp] theorem renewed_supply : (renewed a y s).vehicle = s.vehicle := by
  rw [renewed, replaceEarlier_channel]
  simp [withChannel]

theorem childAt_renewed_sensed (r : Rear) : (childAt (renewed a y s) r).sensed = (childAt s r).sensed := by
  rw [renewed, childAt_takeTarget_sensed, replaceEarlier_channel]
  rfl

theorem sensedMeets_renewed : sensedMeets (renewed a y s) a y = sensedMeets s a y :=
  sensedMeets_of_sensed (by rw [latchAt_renewed, targeted_sensed, cleared_sensed]) (childAt_renewed_sensed a y s)

end

section
variable {a : Aperture} {y : HeldTarget} {q : Requester} {g : List Tag} {s : State}

theorem takeRequest_joinsDrive {d : Drive} (e : (latchAt s a).drive = some d) (same : d.target = y) (own : d.requester = q) :
    takeRequest a y q g s =
      (takeTarget a y (setLatch a { latchAt s a with drive := some { d with tags := d.tags ++ g } } s), .driving) := by
  unfold takeRequest
  simp [e, same, own]

theorem takeRequest_takesCrash {d : Drive} (e : (latchAt s a).drive = some d) (unlocks : d.target = .unlocked)
    (crash : d.requester = .crash) (same : y = .unlocked) (other : q ≠ .crash) : takeRequest a y q g s =
      (takeTarget a y (setLatch a { latchAt s a with drive := some { d with requester := q, tags := g } } s), .driving) := by
  unfold takeRequest
  simp [e, unlocks, crash, same, Ne.symm other]

section
variable (apart : ∀ d, (latchAt s a).drive = some d → ¬(d.target = y ∧ d.requester = q) ∧
  ¬(d.target = .unlocked ∧ d.requester = .crash ∧ y = .unlocked))
include apart

theorem takeRequest_apart : takeRequest a y q g s = takeBeside a y q g s := by
  unfold takeRequest
  dsimp only
  split
  · next d e =>
    obtain ⟨joins, crash⟩ := apart d e
    rw [if_neg (by simpa using joins), if_neg (fun ⟨x, u, c⟩ => crash ⟨u, c, x⟩)]
    rfl
  · rfl

theorem takeRequest_joinsHeld {h : Held} (e : (latchAt s a).held = some h) (same : h.target = y) (own : h.requester = q) :
    takeRequest a y q g s =
      (takeTarget a y (setLatch a { latchAt s a with held := some { h with tags := h.tags ++ g } } s), .held) := by
  rw [takeRequest_apart apart, takeBeside, e]
  exact if_pos (by simp [same, own])

theorem takeRequest_anew (alone : ∀ h, (latchAt s a).held = some h → ¬(h.target = y ∧ h.requester = q)) :
    takeRequest a y q g s = takeAnew a y q g s := by
  rw [takeRequest_apart apart, takeBeside]
  split
  · next h e => exact if_neg (by simpa using alone h e)
  · rfl

end

/-! ### A request that joins nothing -/

theorem latchAt_beginDrive (a : Aperture) (y : HeldTarget) (q : Requester) (g : List Tag) (s : State) :
    latchAt (beginDrive a y q g s) a = { latchAt s a with
      credit := creditOf (latchAt s a) s.now, drive := some { target := y, requester := q, tags := g, start := s.now } } :=
  latchAt_setLatch_same a _ s

theorem takeAnew_done (met : sensedMeets s a y = true) :
    takeAnew a y q g s = (tell q g a metOutcome (renewed a y s), .done) := by
  unfold takeAnew
  exact if_pos (by rw [sensedMeets_renewed, met])

section
variable (unmet : sensedMeets s a y = false)
include unmet

theorem takeAnew_seeks : takeAnew a y q g s = seekDrive a y q g (renewed a y s) := by
  unfold takeAnew
  exact if_neg (by rw [sensedMeets_renewed, unmet]; nofun)

theorem takeAnew_drives (idle : (cleared s.now y (latchAt s a)).drive = none)
    (enough : 300 ≤ creditOf (cleared s.now y (latchAt s a)) s.now) (supplied : s.vehicle.supplyHold = false) :
    takeAnew a y q g s = (beginDrive a y q g (renewed a y s), .driving) := by
  rw [takeAnew_seeks unmet, seekDrive_drives]
  · rw [latchAt_renewed, targeted_drive, idle]
  · rw [latchAt_renewed, creditOf_targeted, renewed_now]
    exact enough
  · rw [renewed_supply, supplied]

theorem takeAnew_holds (waits : (cleared s.now y (latchAt s a)).drive ≠ none ∨
    creditOf (cleared s.now y (latchAt s a)) s.now < 300 ∨ s.vehicle.supplyHold = true) :
    takeAnew a y q g s = (hold a y q g (renewed a y s), .held) := by
  rw [takeAnew_seeks unmet, seekDrive_holds]
  rw [latchAt_renewed, targeted_drive, creditOf_targeted, renewed_now, renewed_supply]
  exact waits

end

/-- What is told about the replaced requests stays told. -/
theorem takeAnew_mail {n : Notice} (m : n ∈ clearedTold a y (latchAt s a)) : n ∈ (takeAnew a y q g s).1.mail := by
  have kept : n ∈ (renewed a y s).mail := by
    rw [renewed_mail]
    exact List.mem_append_right _ m
  unfold takeAnew seekDrive
  split
  · rw [tell_eq_notices]
    exact List.mem_append_left _ kept
  · dsimp only
    split
    · exact kept
    · rw [hold_mail]
      exact List.mem_append_left _ kept

/-- The target of a latch request is the aperture's, whatever is held for the child lock. -/
theorem takeAnew_target (k : actuatorOf y = .latch) :
    (latchAt (takeAnew a y q g s).1 a).target = latchStateOf y ∧ (latchAt (takeAnew a y q g s).1 a).fault = .none := by
  have new : (targeted y (cleared s.now y (latchAt s a))).target = latchStateOf y ∧
      (targeted y (cleared s.now y (latchAt s a))).fault = .none := by
    unfold targeted
    rw [k]
    exact ⟨rfl, rfl⟩
  unfold takeAnew seekDrive
  split
  · rw [latchAt_tell, latchAt_renewed]
    exact new
  · dsimp only
    split
    · rw [latchAt_beginDrive, latchAt_renewed]
      exact new
    · rw [latchAt_hold, latchAt_renewed]
      refine ⟨?_, new.2⟩
      have still : fallback (renewed a y s).free (targeted y (cleared s.now y (latchAt s a))) =
          (targeted y (cleared s.now y (latchAt s a))).target := by
        unfold fallback
        rw [targeted_held]
        split
        · next h e =>
          obtain ⟨_, other, _⟩ := of_cleared_held e
          rw [k] at other
          split
          · next latch => exact absurd latch other
          · rfl
        · rfl
      exact still.trans new.1

theorem childAt_renewed {r : Rear} (k : actuatorOf y = .child) (e : apertureRear a = some r) :
    childAt (renewed a y s) r = { childAt s r with target := decide (y = .on), jam := false } := by
  rw [renewed, takeTarget_child k e, childAt_setChild_same, replaceEarlier_channel]
  rfl

theorem childAt_hold (r : Rear) (x : State) : childAt (hold a y q g x) r =
    (childReturned a ((latchAt x a).held.any fun h => actuatorOf h.target = .child) x.latches.child).get r :=
  congrArg (Rears.get · r) (hold_child a y q g x)

/-- The target of a child-lock request is the child lock's, whatever is held for the latch. -/
theorem takeAnew_child {r : Rear} (k : actuatorOf y = .child) (e : apertureRear a = some r) :
    (childAt (takeAnew a y q g s).1 r).target = decide (y = .on) ∧ (childAt (takeAnew a y q g s).1 r).jam = false := by
  have new : (childAt (renewed a y s) r).target = decide (y = .on) ∧ (childAt (renewed a y s) r).jam = false := by
    rw [childAt_renewed k e]
    exact ⟨rfl, rfl⟩
  unfold takeAnew seekDrive
  split
  · rw [tell_eq_notices]
    exact new
  · dsimp only
    split
    · exact new
    · rw [childAt_hold, latchAt_renewed, targeted_held]
      have none : (cleared s.now y (latchAt s a)).held.any (fun h => actuatorOf h.target = .child) = false := by
        cases held : (cleared s.now y (latchAt s a)).held with
        | none => rfl
        | some h => simpa [k] using (of_cleared_held held).2.1
      rw [none, childReturned_false]
      exact new

theorem cleared_drive_iff :
    (cleared s.now y (latchAt s a)).drive = none ↔
      ∀ d, (latchAt s a).drive = some d → actuatorOf d.target = actuatorOf y := by
  refine ⟨fun idle d e => ?_, cleared_drive_free⟩
  refine Classical.byContradiction fun other => ?_
  rw [cleared_drive_kept (fun free => other (free d e)), e] at idle
  cases idle

/-! ### What a request held changes beside -/

section
variable (waits : takeAnew a y q g s = (hold a y q g (renewed a y s), .held))
include waits

theorem takeAnew_held_told {h : Held} (e : (latchAt s a).held = some h) {t : Trigger} (chain : h.requester = .chain t)
    {n : Tag} (m : n ∈ h.tags) :
    { trigger := t, serial := n.serial, count := n.count, aperture := a, outcome := .overridden } ∈
      (takeAnew a y q g s).1.mail := by
  by_cases k : actuatorOf h.target = actuatorOf y ∨ h.target = .release
  · exact takeAnew_mail (clearedTold_held e k chain m)
  · rw [not_or] at k
    rw [waits, hold_mail, latchAt_renewed, heldTold, targeted_held, cleared_held_kept e k.1 k.2]
    dsimp only
    rw [chain]
    exact List.mem_append_right _ (mem_notices m a _)

theorem takeAnew_held_sensed {h : Held} (e : (latchAt s a).held = some h) (latch : actuatorOf h.target = .latch)
    (child : actuatorOf y = .child) (valid : (latchAt s a).sensed ≠ .invalid) :
    (latchAt (takeAnew a y q g s).1 a).target = (latchAt s a).sensed := by
  have other : actuatorOf h.target ≠ actuatorOf y := by rw [latch, child]; nofun
  have kept : h.target ≠ .release := fun same => by rw [same] at latch; cases latch
  rw [waits, latchAt_hold, latchAt_renewed]
  show fallback _ _ = _
  rw [fallback, targeted_held, cleared_held_kept e other kept]
  dsimp only
  rw [latch]
  dsimp only
  rw [targeted_sensed, cleared_sensed]
  cases sensed : (latchAt s a).sensed with
  | invalid => exact absurd sensed valid
  | _ => rfl

theorem takeAnew_held_returned {h : Held} (e : (latchAt s a).held = some h) (child : actuatorOf h.target = .child)
    (latch : actuatorOf y = .latch) {r : Rear} (rear : apertureRear a = some r) :
    (childAt (takeAnew a y q g s).1 r).target = (childAt s r).sensed := by
  have other : actuatorOf h.target ≠ actuatorOf y := by rw [latch, child]; nofun
  have kept : h.target ≠ .release := fun same => by rw [same] at child; cases child
  rw [waits, childAt_hold, latchAt_renewed, targeted_held, cleared_held_kept e other kept, childReturned]
  simp only [rear, Option.any_some, child, decide_true, if_true, Rears.get_set_same]
  exact childAt_renewed_sensed a y s r

end

end

end Sys2Proof.Machine

/-! The host's latch requests answered (04, R60 to R66). -/

namespace Sys2Proof.Machine

open Sys2Proof

/-! ### The state of a request taken -/

section
variable (n : Nat) (s : State)

@[simp] theorem latchAt_taken (a : Aperture) : latchAt (taken n s) a = latchAt s a := by
  rw [latchAt, taken_latches]
  rfl

@[simp] theorem childAt_taken (r : Rear) : childAt (taken n s) r = childAt s r := by
  rw [childAt, taken_latches]
  rfl

@[simp] theorem pairQualified_taken (a : Aperture) : pairQualified (taken n s) a = pairQualified s a := by
  rw [pairQualified, taken_inputs]
  rfl

@[simp] theorem childQualified_taken (r : Rear) : childQualified (taken n s) r = childQualified s r := by
  rw [childQualified, taken_inputs]
  rfl

@[simp] theorem hostUnqualified_taken (a : Aperture) (x : HeldTarget) :
    hostUnqualified (taken n s) a x = hostUnqualified s a x := by
  simp only [hostUnqualified, pairQualified_taken, childQualified_taken]

theorem allClosed_of_inputs {s t : State} (h : t.inputs = s.inputs) : allClosed t = allClosed s := by
  have each : isClosed t = isClosed s := by
    funext a
    rw [isClosed, isClosed, h]
  rw [allClosed, allClosed, each]

@[simp] theorem lowered_taken (a : Aperture) (x : HeldTarget) : lowered (taken n s) a x = lowered s a x := by
  simp only [lowered, allClosed_of_inputs (taken_inputs n s)]

@[simp] theorem sensedMeets_taken (a : Aperture) (x : HeldTarget) : sensedMeets (taken n s) a x = sensedMeets s a x :=
  sensedMeets_of_sensed (by rw [latchAt_taken]) fun r => by rw [childAt_taken]

end

/-! ### A host's latch request -/

section
variable {s : State} {a : Aperture} {x : HeldTarget}

theorem takeHostLatch_unqualified (h : hostUnqualified s a x = true) :
    takeHostLatch x a s = reply .notReady [] s := if_pos h

theorem takeHostLatch_qualified (h : hostUnqualified s a x = false) : takeHostLatch x a s =
    replyLatch (requestLatch a x .link [] s).2 (finishEvent (requestLatch a x .link [] s).1) := by
  unfold takeHostLatch
  exact if_neg (by rw [h]; nofun)

theorem requestLatch_denied {r : Reason} (h : denial s a x = some r) (q : Requester) (g : List Tag) :
    requestLatch a x q g s = (deny a q g r s, .denied r) := by
  unfold requestLatch
  rw [h]

theorem requestLatch_takes (h : denial s a x = none) (other : x ≠ .release) (q : Requester) (g : List Tag) :
    requestLatch a x q g s = takeRequest a (lowered s a x) q g s := by
  unfold requestLatch
  simp only [h, if_neg other]

theorem requestLatch_release (h : denial s a .release = none) (q : Requester) (g : List Tag) :
    requestLatch a .release q g s = requestRelease q g s := by
  unfold requestLatch
  simp only [h, if_true]

/-- A refusal to the host tells no run. -/
theorem deny_link (a : Aperture) (g : List Tag) (r : Reason) (s : State) :
    deny a .link g r s = if r = .ajar then raise .ajarLock s else s := rfl

theorem finishEvent_deny_link (rests : Settled s) (a : Aperture) (g : List Tag) (r : Reason) :
    finishEvent (deny a .link g r s) = if r = .ajar then raise .ajarLock s else s := by
  rw [deny_link]
  split
  · exact finishEvent_settled (rests.raise _)
  · exact finishEvent_settled rests

theorem lowered_ne_release (s : State) (a : Aperture) (h : x ≠ .release) : lowered s a x ≠ .release := by
  cases x with
  | deadlocked =>
    unfold lowered
    dsimp only
    split
    · nofun
    · split <;> nofun
  | release => exact absurd rfl h
  | _ => nofun

/-- With nothing to replace a new target is taken up as it comes. -/
theorem renewed_idle (y : HeldTarget) (idle : (latchAt s a).drive = none) (alone : (latchAt s a).held = none) :
    renewed a y s = takeTarget a y s := by
  simp only [renewed, replaceEarlier, idle, alone]

end

theorem Settled.takeTarget {s : State} (h : Settled s) (a : Aperture) (y : HeldTarget) : Settled (takeTarget a y s) :=
  h.of_runs (by rw [takeTarget_mail]; exact h.1) (by simp)

/-- Settles O34. -/
theorem latchRequestsDriveOrAreRefused : Obligations.LatchRequestsDriveOrAreRefused := by
  refine ⟨?host, ?take, ?target, ?refusals⟩
  case host =>
    intro b a x s serves rests other code qual allowed y s1 r
    have meaning : exec (latchCommand b x) s = .next (replyLatch r.2 (finishEvent r.1)) := by
      rw [exec_latchCommand b x serves, code, needs_some,
        takeHostLatch_qualified (by rw [hostUnqualified_taken, qual]), requestLatch_takes allowed other, lowered_taken]
    refine ⟨meaning, fun idle alone => ?_⟩
    have new : r = takeAnew a y .link [] (taken 3 s) := by
      refine takeRequest_anew (fun d e => ?_) fun h e => ?_
      · rw [latchAt_taken, idle] at e; cases e
      · rw [latchAt_taken, alone] at e; cases e
    have same : renewed a y (taken 3 s) = s1 := renewed_idle y (by rw [latchAt_taken, idle]) (by rw [latchAt_taken, alone])
    have still : Settled s1 := (rests.taken 3).takeTarget a y
    have clear : cleared (taken 3 s).now y (latchAt (taken 3 s) a) = latchAt s a := by
      rw [latchAt_taken]
      simp only [cleared, driveCleared, idle, alone]
    rw [meaning, new]
    refine ⟨fun met => ?_, fun unmet enough supplied => ?_, fun unmet waits => ?_⟩
    · rw [takeAnew_done (by rw [sensedMeets_taken, met]), same]
      exact congrArg (fun z => Host.Outcome.next (replyResult .done [] z)) (finishEvent_settled still)
    · rw [takeAnew_drives (by rw [sensedMeets_taken, unmet]) (by rw [clear, idle]) (by rw [clear, taken_now]; exact enough)
        (by rw [taken_vehicle, supplied]), same]
      exact congrArg (fun z => Host.Outcome.next (replyResult .driving [] z)) (finishEvent_settled (still.setLatch a _))
    · have low : creditOf (latchAt s1 a) s1.now < 300 ∨ s1.vehicle.supplyHold = true := by
        rw [← same, latchAt_renewed, creditOf_targeted, clear, renewed_now, renewed_supply, taken_now, taken_vehicle]
        exact waits
      have none : (latchAt s1 a).held = none := by
        rw [← same, latchAt_renewed, targeted_held, clear, alone]
      have held : hold a y .link [] s1 = raise .powerHold
          (setLatch a { latchAt s1 a with held := some { target := y, requester := .link, tags := [] } } s1) := by
        rw [hold_eq, if_pos (by simpa [or_comm] using low), heldAnew_none _ _ _ _ _ none]
      rw [takeAnew_holds (by rw [sensedMeets_taken, unmet]) (.inr (by rw [clear, taken_now, taken_vehicle]; exact waits)),
        same, held]
      dsimp only
      rw [finishEvent_settled ((still.setLatch a _).raise _)]
      have drive : (latchAt s1 a).drive = .none := by rw [← same, latchAt_renewed, targeted_drive, clear, idle]
      have overrun : s1.link.overrun = s.link.overrun := by rw [← same, renewed_link, taken_link_overrun]
      refine ⟨_, rfl, raised_raise .powerHold _, ?_, ?_, ?_⟩
      · exact congrArg LatchUnit.held (latchAt_setLatch_same a _ s1)
      · exact (congrArg LatchUnit.drive (latchAt_setLatch_same a _ s1)).trans drive
      · rw [← overrun]
        rfl
  case take =>
    intro a y q g s other u r v mine told
    refine ⟨fun d e same own => takeRequest_joinsDrive e same own,
      fun d e unlocks crash same no => takeRequest_takesCrash e unlocks crash same no,
      fun apart => ⟨fun h e same own => takeRequest_joinsHeld apart e same own, fun alone => ?_⟩⟩
    intro free charged credit heldKept stopped
    have new : r = takeAnew a y q g s := takeRequest_anew apart alone
    clear_value r
    subst new
    have stops : v.drive = (cleared s.now y u).drive → v.credit = (cleared s.now y u).credit →
        v.restFrom = (cleared s.now y u).restFrom → stopped := by
      intro drive credit rest
      refine ⟨fun f => drive.trans (cleared_drive_free f), fun f => drive.trans (cleared_drive_kept f), fun d e k => ?_⟩
      rw [credit, rest, cleared_credit, cleared_restFrom, driveCleared_mine e k]
      exact ⟨rfl, rfl⟩
    have keeps : v.held = (cleared s.now y u).held → heldKept := fun held =>
      ⟨fun h e o k => held.trans (cleared_held_kept e o k), fun k => held.trans (cleared_held_dropped k)⟩
    refine ⟨fun d e k t chain n m => takeAnew_mail (clearedTold_drive e k chain m),
      fun h e k t chain n m => takeAnew_mail (clearedTold_held e k chain m), takeAnew_target,
      fun x k e => takeAnew_child k e, fun met => ?_, fun unmet => ⟨fun f enough supplied => ?_, fun waits => ?_⟩⟩
    · have done := takeAnew_done (q := q) (g := g) met
      have unit : v = targeted y (cleared s.now y u) := by
        simp only [v, done, latchAt_tell, latchAt_renewed]
        rfl
      refine ⟨by rw [done], stops ?_ ?_ ?_, keeps ?_, fun t chain n m => ?_⟩
      · rw [unit, targeted_drive]
      · rw [unit, targeted_credit]
      · rw [unit, targeted_restFrom]
      · rw [unit, targeted_held]
      · rw [done]
        exact told_of_chain chain m a _ _
    · have drives := takeAnew_drives (q := q) (g := g) unmet (cleared_drive_free f) (creditOf_cleared.symm ▸ enough) supplied
      have unit : v = { targeted y (cleared s.now y u) with
          credit := creditOf (cleared s.now y u) s.now,
          drive := some { target := y, requester := q, tags := g, start := s.now } } := by
        simp only [v, drives, latchAt_beginDrive, latchAt_renewed, creditOf_targeted, renewed_now]
        rfl
      refine ⟨by rw [drives], keeps ?_, ?_, ?_⟩
      · rw [unit]; exact targeted_held _ _
      · rw [unit]
      · rw [unit]; exact creditOf_cleared
    · have busy : (cleared s.now y u).drive ≠ none ∨ creditOf (cleared s.now y u) s.now < 300 ∨ s.vehicle.supplyHold = true :=
        waits.imp (fun f idle => f (cleared_drive_iff.1 idle)) fun low => creditOf_cleared.symm ▸ low
      have holds := takeAnew_holds (q := q) (g := g) unmet busy
      have unit : v = { targeted y (cleared s.now y u) with
          held := some { target := y, requester := q, tags := g },
          target := fallback (renewed a y s).free (targeted y (cleared s.now y u)) } := by
        simp only [v, holds, latchAt_hold, latchAt_renewed]
        rfl
      have credit_eq : creditOf (latchAt (renewed a y s) a) (renewed a y s).now = credit := by
        rw [latchAt_renewed, creditOf_targeted, renewed_now]
        exact creditOf_cleared
      refine ⟨by rw [holds], stops ?_ ?_ ?_, by rw [unit], fun h e t chain n m => takeAnew_held_told holds e chain m,
        fun h e l k valid => takeAnew_held_sensed holds e l k valid,
        fun h x e k l rear => takeAnew_held_returned holds e k l rear, fun low => ?_, fun enough supplied => ?_⟩
      · rw [unit]; exact targeted_drive _ _
      · rw [unit]; exact targeted_credit _ _
      · rw [unit]; exact targeted_restFrom _ _
      · rw [holds]
        refine hold_raised a y q g _ ?_
        rw [credit_eq, renewed_supply]
        exact low
      · rw [holds]
        refine (hold_link a y q g _ ?_ ?_).trans (renewed_link a y s)
        · rw [credit_eq]
          exact enough
        · rw [renewed_supply]
          exact supplied
  case target =>
    refine fun a y s => ⟨fun k => ⟨takeTarget_latch k a s, ?_⟩, fun x k e => ⟨takeTarget_child k e s, ?_⟩⟩
    · rw [sensedMeets_latch k, decide_eq_true_eq]
    · rw [sensedMeets_rear k e, decide_eq_true_eq]
  case refusals =>
    refine fun b x s serves rests => ⟨fun bad => ?_, fun a code un => ?_, fun a r code qual denied => ?_⟩
    · rw [exec_latchCommand b x serves, bad, needs_none]
    · rw [exec_latchCommand b x serves, code, needs_some, takeHostLatch_unqualified (by rw [hostUnqualified_taken, un])]
    · rw [exec_latchCommand b x serves, code, needs_some, takeHostLatch_qualified (by rw [hostUnqualified_taken, qual]),
        requestLatch_denied denied, finishEvent_deny_link (rests.taken 3)]
      rfl

end Sys2Proof.Machine

/-! The tailgate's release (04, R68, R69). -/

namespace Sys2Proof.Machine

open Sys2Proof

section
variable {s : State}

/-! ### The tests of a release -/

theorem releaseTest_busy (h : s.latches.pulse ≠ none ∨ s.latches.interval ≠ none) : releaseTest s = some .done :=
  if_pos (by simpa [Option.isSome_iff_ne_none] using h)

section
variable (pulse : s.latches.pulse = none) (interval : s.latches.interval = none)
include pulse interval

theorem releaseTest_locked (h : (latchAt s .tg).sensed ≠ .unlocked ∨ (latchAt s .tg).target ≠ .unlocked) :
    releaseTest s = some (.denied .notUnlocked) := by
  unfold releaseTest
  rw [pulse, interval, if_neg (by nofun), if_pos h]

variable (sensed : (latchAt s .tg).sensed = .unlocked) (target : (latchAt s .tg).target = .unlocked)
include sensed target

theorem releaseTest_moving (moves : speedZero s = false) (on : s.vehicle.powerMode ≠ .off) :
    releaseTest s = some (.denied .speed) := by
  unfold releaseTest
  rw [pulse, interval, if_neg (by nofun), if_neg (by simp [sensed, target]), if_pos ⟨moves, on⟩]

theorem releaseTest_passed (h : speedZero s = true ∨ s.vehicle.powerMode = .off) : releaseTest s = none := by
  unfold releaseTest
  rw [pulse, interval, if_neg (by nofun), if_neg (by simp [sensed, target]), if_neg]
  rintro ⟨moves, on⟩
  refine h.elim (fun still => ?_) on
  rw [moves] at still
  cases still

end

/-! ### A release asked for -/

section
variable (q : Requester) (g : List Tag)

theorem requestRelease_done (h : releaseTest s = some .done) :
    requestRelease q g s = (tell q g .tg (fun _ => .done) s, .done) := by
  unfold requestRelease
  simp only [h]

theorem requestRelease_denied {r : Reason} (h : releaseTest s = some (.denied r)) :
    requestRelease q g s = (deny .tg q g r s, .denied r) := by
  unfold requestRelease
  simp only [h]

theorem requestRelease_holds (h : releaseTest s = none) (low : s.vehicle.supplyHold = true) :
    requestRelease q g s = (hold .tg .release q g s, .held) := by
  unfold requestRelease
  simp only [h, low, if_true]

theorem requestRelease_pulses (h : releaseTest s = none) (supplied : s.vehicle.supplyHold = false) :
    requestRelease q g s = (startPulse q g s, .driving) := by
  unfold requestRelease
  simp only [h, supplied, Bool.false_eq_true, if_false]

theorem startPulse_alone (h : ∀ x, (latchAt s .tg).held = some x → x.target ≠ .release) : startPulse q g s =
    { s with latches := { s.latches with pulse := some { ending := s.now + ms 200, requester := q, tags := g } } } := by
  unfold startPulse
  split
  · next x e => rw [if_neg (h x e)]; rfl
  · rfl

theorem startPulse_replaces {x : Held} (e : (latchAt s .tg).held = some x) (r : x.target = .release) :
    startPulse q g s = { dropHeld .tg s with latches := { (dropHeld .tg s).latches with
      pulse := some { ending := s.now + ms 200, requester := q, tags := g } } } := by
  unfold startPulse
  simp only [e, r, if_true, dropHeld_same]
  rfl

end

theorem dropHeld_told {a : Aperture} {h : Held} (e : (latchAt s a).held = some h) {t : Trigger} (chain : h.requester = .chain t)
    {n : Tag} (m : n ∈ h.tags) :
    { trigger := t, serial := n.serial, count := n.count, aperture := a, outcome := .overridden } ∈ (dropHeld a s).mail := by
  rw [dropHeld_channel, withChannel_mail, e]
  dsimp only
  rw [chain]
  exact List.mem_append_right _ (mem_notices m a _)

theorem fallback_unlocked {u : LatchUnit} (sensed : u.sensed = .unlocked) (target : u.target = .unlocked) (n : Nat) :
    fallback n u = .unlocked := by
  unfold fallback
  split
  · split
    · rw [sensed]; rfl
    · exact target
  · exact target

theorem hold_pulse (a : Aperture) (y : HeldTarget) (q : Requester) (g : List Tag) (s : State) :
    (hold a y q g s).latches.pulse = s.latches.pulse := by
  have anew : (heldAnew a y q g s).latches.pulse = s.latches.pulse := by
    cases e : (latchAt s a).held with
    | none => rw [heldAnew_none _ _ _ _ _ e]; rfl
    | some h =>
      rw [heldAnew_some _ _ _ _ _ e, dropHeld_channel]
      cases actuatorOf h.target with
      | child => rw [resetTarget_child]; rfl
      | _ => rfl
  rw [hold_eq]
  split
  · exact anew
  · exact anew

end

/-- Settles O35. -/
theorem tailgateReleasesPulse : Obligations.TailgateReleasesPulse := by
  refine ⟨fun b s serves rests code qual => ?host, fun p s power e => ?pulse, fun e s power waits => ?interval⟩
  case host =>
    intro u pulsing told
    generalize hx : taken 3 s = x
    have meaning : exec (.apertureCommandTailgateRelease b) s =
        .next (replyLatch (requestRelease .link [] x).2 (finishEvent (requestRelease .link [] x).1)) := by
      refine (exec_latchCommand b .release serves).trans ?_
      rw [hx, code, needs_some, takeHostLatch_qualified, requestLatch_release rfl]
      rw [← hx, hostUnqualified_taken, hostUnqualified, actuatorOf]
      simp [qual]
    have still : Settled x := hx ▸ rests.taken 3
    have unit : latchAt x .tg = u := by rw [← hx]; exact latchAt_taken 3 s .tg
    have latches : x.latches = s.latches := by rw [← hx, taken_latches]
    have vehicle : x.vehicle = s.vehicle := by rw [← hx, taken_vehicle]
    have now : x.now = s.now := by rw [← hx, taken_now]
    have pulsed : pulsing = { x with latches := { x.latches with
        pulse := some { ending := x.now + ms 200, requester := .link, tags := [] } } } := by
      show { taken 3 s with latches := { s.latches with
        pulse := some { ending := s.now + ms 200, requester := .link, tags := [] } } } = _
      rw [hx, ← latches, ← now]
    rw [pulsed, meaning, ← latches, ← vehicle, ← now, ← unit]
    clear_value pulsing
    refine ⟨fun busy => ?_, fun pulse interval => ⟨fun locked => ?_, fun sensed target => ⟨fun moves on => ?_, fun passed => ?_⟩⟩⟩
    · rw [requestRelease_done _ _ (releaseTest_busy busy)]
      exact congrArg (fun z => Host.Outcome.next (replyResult .done [] z)) (finishEvent_settled still)
    · rw [requestRelease_denied _ _ (releaseTest_locked pulse interval locked), finishEvent_deny_link still]
      rfl
    · rw [requestRelease_denied _ _ (releaseTest_moving pulse interval sensed target moves on), finishEvent_deny_link still]
      rfl
    · have free := releaseTest_passed pulse interval sensed target passed
      refine ⟨fun supplied alone => ?_, fun h supplied e r => ?_, fun low alone => ?_, fun h low e => ?_⟩
      · rw [requestRelease_pulses _ _ free supplied, startPulse_alone _ _ alone]
        exact congrArg (fun z => Host.Outcome.next (replyResult .driving [] z)) (finishEvent_settled (still.of_runs still.1 rfl))
      · rw [requestRelease_pulses _ _ free supplied, startPulse_replaces _ _ e r]
        refine ⟨_, rfl, rfl, ?_, fun t chain g m => dropHeld_told e chain m⟩
        show (latchAt (dropHeld .tg x) .tg).held = none
        rw [dropHeld_channel, latchAt_withChannel]
      · rw [requestRelease_holds _ _ free low, hold_eq, if_pos (by simp [low]), heldAnew_none _ _ _ _ _ alone]
        exact congrArg (fun z => Host.Outcome.next (replyResult .held [] z)) (finishEvent_settled ((still.setLatch _ _).raise _))
      · rw [requestRelease_holds _ _ free low]
        refine ⟨_, rfl, ?_, ?_, ?_, hold_raised _ _ _ _ _ (.inr low), fun t chain g m => ?_⟩
        · rw [latchAt_hold]
        · rw [latchAt_hold]
          exact fallback_unlocked sensed target _
        · rw [hold_pulse, pulse]
        · rw [hold_mail, heldTold, e]
          dsimp only
          rw [chain]
          exact List.mem_append_right _ (mem_notices m _ _)
  case pulse =>
    have ends : pulseEnd s = tell p.requester p.tags .tg (fun _ => .done)
        { clockTo p.ending s with latches := { s.latches with pulse := none, interval := some (max s.now p.ending + ms 1000) } } := by
      unfold pulseEnd
      rw [e]
      rfl
    refine ⟨_, event_running (fun s => finishEvent (pulseEnd s)) power, ?_⟩
    rw [ends]
    refine ⟨by rw [tell_eq_notices], by rw [tell_eq_notices]; rfl, by rw [tell_eq_notices]; rfl,
      fun t chain g m => told_of_chain chain m _ _ _⟩
  case interval =>
    refine (event_running intervalEnd power).trans ?_
    unfold intervalEnd
    rw [waits]
    rfl

end Sys2Proof.Machine

/-! The host's window requests (05, R80 to R86): when a movement is denied, what one taken does in each phase. -/

namespace Sys2Proof.Machine

open Sys2Proof

/-! ### When a movement is denied (05, R82) -/

theorem moveDenial_none_iff {hold : Bool} {w : Window} {dir : Direction} {mode : MoveMode} (h : mode ≠ .reversal) :
    moveDenial hold w dir mode = none ↔ ¬(hold = true ∧ dir = .closing) ∧ permitted (normalization w) dir mode = true ∧
      (automaticClosing dir mode = true → w.record.autoClose = true ∧ w.pinchCount < 3) := by
  unfold moveDenial
  rw [if_neg h]
  by_cases crash : hold = true ∧ dir = .closing
  · simp [crash.1, crash.2]
  · rw [if_neg (by simpa using crash)]
    cases permitted (normalization w) dir mode with
    | false => simp
    | true =>
      cases automaticClosing dir mode with
      | false => simp [crash]
      | true =>
        cases w.record.autoClose with
        | false => simp
        | true => simp [crash]

theorem permitted_closing {n : Normalization} {mode : MoveMode} (h : permitted n .closing mode = true) (other : mode ≠ .held) :
    n = .normalized := by
  cases n with
  | normalized => rfl
  | _ => simp [permitted, other] at h

/-- Settles O39. -/
theorem automaticClosingIsPermittedRarely : Obligations.AutomaticClosingIsPermittedRarely := by
  rintro hold w dir mode plain allowed rfl
  obtain ⟨noCrash, permits, automatic⟩ := (moveDenial_none_iff plain).1 allowed
  refine ⟨by simpa using noCrash, fun other => ⟨permitted_closing permits other, automatic ?_⟩⟩
  cases mode with
  | held => exact absurd rfl other
  | reversal => exact absurd rfl plain
  | _ => rfl

/-! ### The state of a request taken -/

@[simp] theorem windowAt_taken (n : Nat) (s : State) (d : Door) : windowAt (taken n s) d = windowAt s d := by
  rw [windowAt, taken_windows]
  rfl

theorem onWindow_door {a : Aperture} {d : Door} (h : apertureDoor a = some d) (f : Door → State → State) (s : State) :
    onWindow a f s = f d s := by
  unfold onWindow
  rw [h]

theorem onWindow_tailgate (f : Door → State → State) (s : State) :
    onWindow .tg f s = reply (.refused .notFitted) [] s := rfl

/-! ### A movement taken (05, R83) -/

section
variable {d : Door} {m : Movement} {s : State}

theorem requestMovement_reversing (h : reversing (windowAt s d) = true) :
    requestMovement d m s = (tellMove d m (.denied .reversal) s, .denied .reversal) := if_pos h

theorem requestMovement_denied {r : Reason} (h : reversing (windowAt s d) = false)
    (k : moveDenial s.latches.crashHold (windowAt s d) m.dir m.mode = some r) :
    requestMovement d m s = (tellMove d m (.denied r) s, .denied r) := by
  unfold requestMovement
  simp only [h, Bool.false_eq_true, if_false, k]

theorem requestMovement_taken (h : reversing (windowAt s d) = false)
    (k : moveDenial s.latches.crashHold (windowAt s d) m.dir m.mode = none) :
    requestMovement d m s = takeMovement d m s := by
  unfold requestMovement
  simp only [h, Bool.false_eq_true, if_false, k]

theorem takeMovement_idle (p : (windowAt s d).phase = .idle) : takeMovement d m s =
    if atTarget (windowAt s d) m then (tellMove d m .done s, .done) else (beginMarking d m s, .moving) := by
  unfold takeMovement
  simp only [p]

theorem takeMovement_marking (p : (windowAt s d).phase = .marking) : takeMovement d m s =
    (setWindow d { windowAt s d with
      motion := some (freshMotion { m with fixed := decide (m.mode ≠ .toPosition) }), lastFault := .none }
      (tellMotion d .overridden s), .moving) := by
  unfold takeMovement
  simp only [p]

theorem takeMovement_coasting (p : (windowAt s d).phase = .coasting) : takeMovement d m s =
    (setWindow d { windowAt s d with
      followOn := some { m with fixed := decide (m.mode ≠ .toPosition) }, lastFault := .none }
      (removeFollowOn d (some .overridden) s), .moving) := by
  unfold takeMovement
  simp only [p]

section
variable {x : Motion} (p : (windowAt s d).phase = .running) (e : (windowAt s d).motion = some x)
include p e

/-- A movement taken while the motor runs: it is reached already, goes on the same way, or follows the stop. -/
theorem takeMovement_running : takeMovement d m s =
    let w := { windowAt s d with lastFault := .none }
    if atTarget w m then
      (tellMove d m .done (setWindow d (coast s.now (takeOver { m with dir := x.move.dir } w)) (tellMotion d .overridden s)), .done)
    else if m.dir = x.move.dir then (setWindow d (takeOver m w) (tellMotion d .overridden s), .moving)
    else (setWindow d { coast s.now w with followOn := some m } (tellMotion d .overridden s), .moving) := by
  have now : (tellMotion d .overridden s).now = s.now := by simp
  unfold takeMovement
  dsimp only
  split
  case h_3 =>
    rw [now]
    split
    · next none => rw [e] at none; cases none
    · next y some =>
      rw [e] at some
      cases some
      rfl
  all_goals
    next other =>
      rw [p] at other
      cases other

theorem takeMovement_reached (h : atTarget (windowAt s d) m = true) : takeMovement d m s =
    (tellMove d m .done (setWindow d
      (coast s.now (takeOver { m with dir := x.move.dir } { windowAt s d with lastFault := .none }))
      (tellMotion d .overridden s)), .done) :=
  (takeMovement_running p e).trans (if_pos h)

theorem takeMovement_goes (h : atTarget (windowAt s d) m = false) : takeMovement d m s =
    (setWindow d
      (if m.dir = x.move.dir then takeOver m { windowAt s d with lastFault := .none }
        else { coast s.now { windowAt s d with lastFault := .none } with followOn := some m })
      (tellMotion d .overridden s), .moving) := by
  refine (takeMovement_running p e).trans ((if_neg (by rw [← Bool.not_eq_true] at h; exact h)).trans ?_)
  split <;> rfl

end

end

end Sys2Proof.Machine

/-! The host's window requests answered (05, R80 to R86). -/

namespace Sys2Proof.Machine

open Sys2Proof

/-- The host's command for a movement to an end. -/
def windowMove (b : Byte) : Direction → Instr
  | .opening => .apertureCommandWindowOpen b
  | .closing => .apertureCommandWindowClose b

theorem exec_windowMove (b : Byte) (dir : Direction) {s : State} (serves : Serving s) :
    exec (windowMove b dir) s =
    .next (needs (apertureOf b) (fun a => onWindow a fun d => takeHostMove d (plainMove dir .toEnd .link [])) (taken 3 s)) := by
  cases dir with
  | opening => exact hostRequest_ready serves
  | closing => exact hostRequest_ready serves

theorem exec_windowTo (b p : Byte) {s : State} (serves : Serving s) : exec (.apertureCommandWindowTo b p) s =
    .next (needs (apertureOf b) (fun a => needs (percentOf p) fun n => onWindow a (takeWindowTo n)) (taken 3 s)) :=
  hostRequest_ready serves

theorem exec_windowStop (b : Byte) {s : State} (serves : Serving s) : exec (.windowStop b) s =
    .next (needs (apertureOf b) (fun a => onWindow a takeWindowStop) (taken 3 s)) := hostRequest_ready serves

theorem percentOf_some {p : Byte} (h : p.toNat ≤ 100) : percentOf p = some p.toNat := if_pos h
theorem percentOf_none {p : Byte} (h : 100 < p.toNat) : percentOf p = none := if_neg (Nat.not_le.2 h)

/-! ### The host's movement -/

section
variable {d : Door} {m : Movement} {s : State}

theorem takeHostMove_taken (h : reversing (windowAt s d) = false)
    (k : moveDenial s.latches.crashHold (windowAt s d) m.dir m.mode = none) : takeHostMove d m s =
      replyWindow (takeMovement d m s).2 (finishEvent (takeMovement d m s).1) := by
  rw [takeHostMove, requestMovement_taken h k]

section
variable (link : m.requester = .link)
include link

/-- The host is told by the reply alone. -/
theorem tellMove_link (o : OpOutcome) (s : State) : tellMove d m o s = s := by
  rw [tellMove, link]
  rfl

variable (rests : Settled s)
include rests

theorem takeHostMove_reversing (h : reversing (windowAt s d) = true) :
    takeHostMove d m s = reply (.refused .reversal) [] s := by
  rw [takeHostMove, requestMovement_reversing h, tellMove_link link]
  dsimp only
  rw [finishEvent_settled rests]
  rfl

theorem takeHostMove_denied {r : Reason} (h : reversing (windowAt s d) = false)
    (k : moveDenial s.latches.crashHold (windowAt s d) m.dir m.mode = some r) :
    takeHostMove d m s = reply (.refused r) [] s := by
  rw [takeHostMove, requestMovement_denied h k, tellMove_link link]
  dsimp only
  rw [finishEvent_settled rests]
  rfl

end

theorem takeWindowTo_learned {l : Nat} (e : (windowAt s d).record.travel = some l) (n : Nat) :
    takeWindowTo n d s = takeHostMove d (positionMove (windowAt s d) (n * l / 100) .link []) s := by
  unfold takeWindowTo
  simp only [e]
  rfl

theorem takeWindowTo_unlearned (e : (windowAt s d).record.travel = none) (n : Nat) : takeWindowTo n d s =
    reply (.refused (if reversing (windowAt s d) then .reversal else .unnormalized)) [] s := by
  unfold takeWindowTo
  simp only [e]
  rfl

theorem takeWindowStop_reversing (h : reversing (windowAt s d) = true) :
    takeWindowStop d s = reply (.refused .reversal) [] s := if_pos h

theorem Settled.beginMarking (rests : Settled s) (d : Door) (m : Movement) : Settled (beginMarking d m s) := by
  unfold Machine.beginMarking
  dsimp only
  split
  · exact (rests.setWindow d _).offer _ _ _
  · exact rests.setWindow d _

theorem reversing_idle {w : Window} (p : w.phase = .idle) (e : w.followOn = none) : reversing w = false := by
  simp [reversing, inProgress, p, e]

end

/-- Settles O38. -/
theorem windowRequestsMoveOrAreRefused : Obligations.WindowRequestsMoveOrAreRefused := by
  refine ⟨?idle, ?moving, ?position, ?refused⟩
  case idle =>
    intro b a d s serves rests code door p alone
    have free := reversing_idle p alone
    refine ⟨fun dir allowed => ?_, fun n l small travel => ?_⟩
    · refine (exec_windowMove b dir serves).trans ?_
      rw [code, needs_some, onWindow_door door,
        takeHostMove_taken (by rw [windowAt_taken, free]) (by rw [windowAt_taken, taken_latches]; exact allowed),
        takeMovement_idle (by rw [windowAt_taken, p])]
      exact congrArg (fun z => Host.Outcome.next (replyResult .moving [] z))
        (finishEvent_settled ((rests.taken 3).beginMarking d _))
    · intro m allowed
      have request : exec (.apertureCommandWindowTo b n) s =
          .next (replyWindow (takeMovement d m (taken 3 s)).2 (finishEvent (takeMovement d m (taken 3 s)).1)) := by
        rw [exec_windowTo b n serves, code, needs_some, percentOf_some small, needs_some, onWindow_door door,
          takeWindowTo_learned (by rw [windowAt_taken]; exact travel), windowAt_taken,
          takeHostMove_taken (by rw [windowAt_taken, free]) (by rw [windowAt_taken, taken_latches]; exact allowed)]
      rw [request, takeMovement_idle (by rw [windowAt_taken, p]), windowAt_taken]
      refine ⟨fun apart => ?_, fun there => ?_⟩
      · rw [apart]
        exact congrArg (fun z => Host.Outcome.next (replyResult .moving [] z))
          (finishEvent_settled ((rests.taken 3).beginMarking d _))
      · rw [there]
        exact congrArg (fun z => Host.Outcome.next (replyResult .done [] z)) (finishEvent_settled (rests.taken 3))
  case moving =>
    intro b a d dir s serves code door free allowed m w
    have request : exec (windowMove b dir) s =
        .next (replyWindow (takeMovement d m (taken 3 s)).2 (finishEvent (takeMovement d m (taken 3 s)).1)) := by
      rw [exec_windowMove b dir serves, code, needs_some, onWindow_door door,
        takeHostMove_taken (by rw [windowAt_taken, free]) (by rw [windowAt_taken, taken_latches]; exact allowed)]
    refine ⟨fun x p e => request.trans ?_, fun p => request.trans ?_, fun p => request.trans ?_⟩
    · rw [takeMovement_goes (x := x) (by rw [windowAt_taken]; exact p) (by rw [windowAt_taken]; exact e) rfl, windowAt_taken,
        taken_now]
      simp only [eq_comm (a := m.dir)]
      rfl
    · rw [takeMovement_marking (by rw [windowAt_taken]; exact p), windowAt_taken]
      rfl
    · rw [takeMovement_coasting (by rw [windowAt_taken]; exact p), windowAt_taken]
      rfl
  case position =>
    intro b n l a d s serves code door free small travel m w allowed
    have request : exec (.apertureCommandWindowTo b n) s =
        .next (replyWindow (takeMovement d m (taken 3 s)).2 (finishEvent (takeMovement d m (taken 3 s)).1)) := by
      rw [exec_windowTo b n serves, code, needs_some, percentOf_some small, needs_some, onWindow_door door,
        takeWindowTo_learned (by rw [windowAt_taken]; exact travel), windowAt_taken,
        takeHostMove_taken (by rw [windowAt_taken, free]) (by rw [windowAt_taken, taken_latches]; exact allowed)]
    rw [request]
    refine ⟨fun x p e => ⟨fun there => ?_, fun apart => ?_⟩, fun p => ?_, fun p => ?_⟩
    · rw [takeMovement_reached (x := x) (by rw [windowAt_taken]; exact p) (by rw [windowAt_taken]; exact e)
        (by rw [windowAt_taken]; exact there), windowAt_taken, taken_now]
      rfl
    · rw [takeMovement_goes (x := x) (by rw [windowAt_taken]; exact p) (by rw [windowAt_taken]; exact e)
        (by rw [windowAt_taken]; exact apart), windowAt_taken, taken_now]
      rfl
    · rw [takeMovement_marking (by rw [windowAt_taken]; exact p), windowAt_taken]
      rfl
    · rw [takeMovement_coasting (by rw [windowAt_taken]; exact p), windowAt_taken]
      rfl
  case refused =>
    intro b s serves rests answered
    have still := rests.taken 3
    have moves := fun dir => exec_windowMove b dir serves
    refine ⟨fun bad => ?_, fun p large => ?_, fun tailgate => ?_, fun a d code door => ?_⟩
    · refine ⟨(moves .opening).trans ?_, (moves .closing).trans ?_, (exec_windowStop b serves).trans ?_,
        fun p => (exec_windowTo b p serves).trans ?_⟩ <;> rw [bad] <;> rfl
    · refine (exec_windowTo b p serves).trans ?_
      rw [percentOf_none large]
      cases apertureOf b <;> rfl
    · refine ⟨(moves .opening).trans ?_, (moves .closing).trans ?_, (exec_windowStop b serves).trans ?_,
        fun p small => (exec_windowTo b p serves).trans ?_⟩
      · rw [tailgate]; rfl
      · rw [tailgate]; rfl
      · rw [tailgate]; rfl
      · rw [tailgate, percentOf_some small]; rfl
    · intro w
      have percent : ∀ p : Byte, p.toNat ≤ 100 → exec (.apertureCommandWindowTo b p) s =
          .next (takeWindowTo p.toNat d (taken 3 s)) := fun p small => by
        rw [exec_windowTo b p serves, code, needs_some, percentOf_some small, needs_some, onWindow_door door]
      have move : ∀ dir, exec (windowMove b dir) s =
          .next (takeHostMove d (plainMove dir .toEnd .link []) (taken 3 s)) := fun dir => by
        rw [moves dir, code, needs_some, onWindow_door door]
      have stop : exec (.windowStop b) s = .next (takeWindowStop d (taken 3 s)) := by
        rw [exec_windowStop b serves, code, needs_some, onWindow_door door]
      refine ⟨fun turns => ?_, fun free => ⟨fun r denied => ?_, fun r denied => ?_, fun p small => ⟨fun none => ?_, fun l r travel denied => ?_⟩⟩⟩
      · have turns' : reversing (windowAt (taken 3 s) d) = true := by rw [windowAt_taken]; exact turns
        refine ⟨(move .opening).trans ?_, (move .closing).trans ?_, stop.trans ?_, fun p small => (percent p small).trans ?_⟩
        · rw [takeHostMove_reversing rfl still turns']
        · rw [takeHostMove_reversing rfl still turns']
        · rw [takeWindowStop_reversing turns']
        · cases travel : (windowAt (taken 3 s) d).record.travel with
          | none => rw [takeWindowTo_unlearned travel, turns']; rfl
          | some l => rw [takeWindowTo_learned travel, takeHostMove_reversing rfl still turns']
      · refine (move .opening).trans ?_
        rw [takeHostMove_denied rfl still (by rw [windowAt_taken]; exact free)
          (by rw [windowAt_taken, taken_latches]; exact denied)]
      · refine (move .closing).trans ?_
        rw [takeHostMove_denied rfl still (by rw [windowAt_taken]; exact free)
          (by rw [windowAt_taken, taken_latches]; exact denied)]
      · refine (percent p small).trans ?_
        rw [takeWindowTo_unlearned (by rw [windowAt_taken]; exact none), windowAt_taken, free]
        rfl
      · refine (percent p small).trans ?_
        rw [takeWindowTo_learned (by rw [windowAt_taken]; exact travel), windowAt_taken,
          takeHostMove_denied rfl still (by rw [windowAt_taken]; exact free)
            (by rw [windowAt_taken, taken_latches]; exact denied)]

end Sys2Proof.Machine

/-! Stops, setups and relearning asked for by the host (05, R86 to R88). -/

namespace Sys2Proof.Machine

open Sys2Proof

theorem apertureOf_door {b : Byte} {d : Door} (h : doorOf b = some d) : apertureOf b = some (doorAperture d) := by
  unfold doorOf at h
  unfold apertureOf
  revert h
  generalize b.toNat = n
  match n with
  | 0 | 1 | 2 | 3 => rintro ⟨⟩; rfl
  | n + 4 => intro h; simp [allDoors] at h

theorem apertureDoor_door (d : Door) : apertureDoor (doorAperture d) = some d := by cases d <;> rfl

/-- A record offered stands in the queue. -/
theorem offer_stands (id : RecordId) (c : Content) (l : List WriteWaiter) (s : State) :
    ∃ e ∈ (offer id c l s).store.queue, e.id = id ∧ e.content = c := by
  simp only [offer]
  split
  · next h =>
    obtain ⟨e, mem, same⟩ := List.any_eq_true.1 h
    have same : e.id = id := by simpa using same
    exact ⟨_, List.mem_map.2 ⟨e, mem, if_pos same⟩, same, rfl⟩
  · exact ⟨_, List.mem_append_right _ (List.mem_singleton.2 rfl), rfl, rfl⟩

section
variable {d : Door} {s : State}

/-! ### A stop -/

theorem takeWindowStop_stops (free : reversing (windowAt s d) = false)
    (works : inProgress (windowAt s d) = true ∨ (windowAt s d).followOn ≠ none) : takeWindowStop d s =
      replyResult .stopped [] (finishEvent (removeFollowOn d (some .overridden) (stopMovement d (some .overridden) s))) := by
  unfold takeWindowStop
  simp only [free, Bool.false_eq_true, if_false]
  exact if_pos (by simpa [Option.isSome_iff_ne_none] using works)

theorem takeWindowStop_still (rests : inProgress (windowAt s d) = false) (alone : (windowAt s d).followOn = none) :
    takeWindowStop d s = replyResult .idle [] s := by
  unfold takeWindowStop
  simp [reversing, rests, alone]

theorem mem_removeFollowOn_mail {n : Notice} (h : n ∈ s.mail) (o : Option OpOutcome) : n ∈ (removeFollowOn d o s).mail := by
  unfold removeFollowOn
  dsimp only
  split
  · exact h
  · split
    · rw [tellMove, tell_eq_notices]
      exact List.mem_append_left _ h
    · exact h

theorem stopTold_told {m : Motion} (e : (windowAt s d).motion = some m) (o : OpOutcome) {t : Trigger}
    (chain : m.move.requester = .chain t) {g : Tag} (mem : g ∈ m.move.tags) :
    { trigger := t, serial := g.serial, count := g.count, aperture := doorAperture d, outcome := o } ∈
      (stopTold d (some o) s).mail := by
  simp only [stopTold, tellMotion, e, tellMove]
  exact told_of_chain chain mem _ _ _

theorem removeFollowOn_some {m : Movement} (e : (windowAt s d).followOn = some m) (o : OpOutcome) :
    removeFollowOn d (some o) s = tellMove d m o (setWindow d { windowAt s d with followOn := none } s) := by
  unfold removeFollowOn
  simp only [e]

theorem removeFollowOn_none (e : (windowAt s d).followOn = none) (o : Option OpOutcome) : removeFollowOn d o s = s := by
  unfold removeFollowOn
  simp only [e]

theorem setWindow_twice (v w : Window) (s : State) : setWindow d w (setWindow d v s) = setWindow d w s := by
  cases d <;> rfl

/-- What a window record says once the window stands still. -/
def settledRecord (w : Window) : WindowRec := { (applyPending w).record with valid := w.known }

/-- The window once it stands still. -/
def stillWindow (w : Window) : Window :=
  { applyPending w with phase := .idle, motion := none, followOn := none, record := settledRecord w }

theorem toIdle_eq (d : Door) (s : State) : toIdle d s =
    offer (.window d) (.window (settledRecord (windowAt s d))) [] (setWindow d (stillWindow (windowAt s d)) s) := by
  unfold toIdle writeWindow
  dsimp only
  rw [windowAt_setWindow_same]
  rfl

theorem windowAt_toIdle (d : Door) (s : State) : windowAt (toIdle d s) d = stillWindow (windowAt s d) := by
  rw [toIdle_eq]
  exact windowAt_setWindow_same d _ _

theorem toIdle_stands (d : Door) (s : State) : ∃ e ∈ (toIdle d s).store.queue,
    e.id = .window d ∧ e.content = .window (windowAt (toIdle d s) d).record := by
  rw [windowAt_toIdle, toIdle_eq]
  exact offer_stands _ _ _ _

theorem toIdle_setWindow (w : Window) (s : State) : toIdle d (setWindow d w s) =
    offer (.window d) (.window (settledRecord w)) [] (setWindow d (stillWindow w) s) := by
  rw [toIdle_eq, windowAt_setWindow_same, setWindow_twice]

theorem comeToRest_alone (h : (windowAt s d).followOn = none) : comeToRest d s = toIdle d s := by
  have same : comeToRest d s = toIdle d (setWindow d (applyPending (windowAt s d)) s) := by
    unfold comeToRest
    have alone : (applyPending (windowAt s d)).followOn = none := h
    simp only [alone]
  rw [same, toIdle_setWindow, toIdle_eq]
  rfl

/-! ### Setups and relearning -/

theorem takeWindowSetup_defers (h : (windowAt s d).phase ≠ .idle) (n : Nat) (auto : Bool) : takeWindowSetup n auto d s =
    replyResult .deferred [] (setWindow d { windowAt s d with pendingSetup := some (n, auto) } s) := if_neg h

theorem takeWindowSetup_same (h : (windowAt s d).phase = .idle) {n : Nat} {auto : Bool}
    (same : (windowAt s d).record.level = n ∧ (windowAt s d).record.autoClose = auto) :
    takeWindowSetup n auto d s = replyResult .applied [] s := by
  unfold takeWindowSetup
  dsimp only
  rw [if_pos h, if_pos same]

theorem takeWindowSetup_writes (h : (windowAt s d).phase = .idle) {n : Nat} {auto : Bool}
    (new : ¬((windowAt s d).record.level = n ∧ (windowAt s d).record.autoClose = auto)) : takeWindowSetup n auto d s =
      writeWindow d [.applied]
        (setWindow d { windowAt s d with record := { (windowAt s d).record with level := n, autoClose := auto } } s) := by
  unfold takeWindowSetup
  dsimp only
  rw [if_pos h, if_neg new]

theorem takeWindowRelearn_defers (h : (windowAt s d).phase ≠ .idle) : takeWindowRelearn d s =
    replyResult .deferred [] (setWindow d { windowAt s d with pendingRelearn := true } s) := if_neg h

theorem takeWindowRelearn_writes (h : (windowAt s d).phase = .idle) : takeWindowRelearn d s = writeWindow d [.applied]
    (setWindow d { windowAt s d with
      record := { (windowAt s d).record with travel := none, refs := Vector.replicate 16 none } } s) := if_pos h

/-- A record set and written for the host: its answer waits for the write. -/
theorem written_window (r : WindowRec) (works : s.link.state = .working) :
    let t := writeWindow d [.applied] (setWindow d { windowAt s d with record := r } s)
    (windowAt t d).record = r ∧ t.link.state = .working ∧ Queued t (.window d) (.window (windowAt t d).record) .applied := by
  intro t
  have window : (windowAt t d).record = r := congrArg Window.record (windowAt_setWindow_same d _ s)
  refine ⟨window, works, ?_⟩
  rw [window]
  have queued := offer_queued (.window d) (.window r) [.applied]
    (setWindow d { windowAt s d with record := r } s) (x := .applied) (List.mem_singleton.2 rfl)
  have same : t = offer (.window d) (.window r) [.applied] (setWindow d { windowAt s d with record := r } s) := by
    simp only [t, writeWindow, windowAt_setWindow_same]
  rw [same]
  exact queued

end

/-- Settles O40. -/
theorem windowStopSetupAndRelearn : Obligations.WindowStopSetupAndRelearn := by
  intro b d s serves door told
  have stop : exec (.windowStop b) s = .next (takeWindowStop d (taken 3 s)) := by
    rw [exec_windowStop b serves, apertureOf_door door, needs_some, onWindow_door (apertureDoor_door d)]
  have setup : ∀ {n y : Byte} {auto : Bool}, boolOf y = some auto →
      exec (.windowSetup b n y) s = .next (takeWindowSetup (min 15 n.toNat) auto d (taken 3 s)) := by
    intro n y auto bool
    refine (hostRequest_ready serves).trans ?_
    rw [door, needs_some, bool, needs_some]
  have relearn : exec (.windowRelearn b) s = .next (takeWindowRelearn d (taken 1 s)) := by
    refine (hostRequest_ready serves).trans ?_
    rw [door, needs_some]
  have window : ∀ n, windowAt (taken n s) d = windowAt s d := fun n => windowAt_taken n s d
  refine ⟨fun m p e free => ?running, fun m p e free => ?marking, fun m p e free => ?follow, fun p alone => ?coasting,
    fun p alone _ => ?idle, fun n y auto bool => ⟨fun p => ?later, fun p level close => ?same, fun p new => ?setup⟩,
    fun p => ?relearnLater, fun p => ?relearn⟩
  case running =>
    have works : inProgress (windowAt s d) = true := by simp [inProgress, p]
    rw [stop, takeWindowStop_stops (by rw [window, free]) (.inl (by rw [window, works])),
      stopMovement_running _ (by rw [window]; exact p), window, taken_now]
    refine ⟨_, rfl, ?_, ?_, ?_, ?_, fun t chain g mem => ?_⟩
    · rw [removeFollowOn_window, windowAt_setWindow_same]; rfl
    · rw [removeFollowOn_window, windowAt_setWindow_same]; rfl
    · rw [removeFollowOn_window]
    · rw [removeFollowOn_window, windowAt_setWindow_same]; rfl
    · refine mem_removeFollowOn_mail ?_ _
      exact stopTold_told (s := taken 3 s) (by rw [window]; exact e) _ chain mem
  case marking =>
    have works : inProgress (windowAt s d) = true := by simp [inProgress, p]
    rw [stop, takeWindowStop_stops (by rw [window, free]) (.inl (by rw [window, works])),
      stopMovement_marking _ (by rw [window]; exact p), window,
      comeToRest_alone (by rw [windowAt_setWindow_same]), removeFollowOn_none (by rw [windowAt_toIdle]; rfl)]
    refine ⟨_, rfl, ?_, ?_, ?_, ?_, toIdle_stands d _, fun t chain g mem => ?_⟩
    · rw [windowAt_toIdle]; rfl
    · rw [windowAt_toIdle]; rfl
    · rw [windowAt_toIdle]; rfl
    · rw [windowAt_toIdle, windowAt_setWindow_same]; rfl
    · rw [toIdle_mail]
      exact stopTold_told (s := taken 3 s) (by rw [window]; exact e) _ chain mem
  case follow =>
    rw [stop, takeWindowStop_stops (by rw [window, free]) (.inr (by rw [window, e]; nofun)),
      stopMovement_still _ (by rw [window, p]; nofun) (by rw [window, p]; nofun),
      removeFollowOn_some (by rw [window]; exact e), window]
  case coasting =>
    rw [stop, takeWindowStop_still (by rw [window]; simp [inProgress, p]) (by rw [window, alone])]
  case idle =>
    rw [stop, takeWindowStop_still (by rw [window]; simp [inProgress, p]) (by rw [window, alone])]
  case later =>
    rw [setup bool, takeWindowSetup_defers (by rw [window]; exact p), window]
  case same =>
    rw [setup bool, takeWindowSetup_same (by rw [window]; exact p) (by rw [window]; exact ⟨level, close⟩)]
  case setup =>
    rw [setup bool, takeWindowSetup_writes (by rw [window]; exact p) (by rw [window]; exact new)]
    refine ⟨_, rfl, ?_⟩
    have written := written_window (d := d) { (windowAt s d).record with level := min 15 n.toNat, autoClose := auto }
      (taken_link_state 3 s)
    rw [window] at written ⊢
    exact written
  case relearnLater =>
    rw [relearn, takeWindowRelearn_defers (by rw [window]; exact p), window]
  case relearn =>
    rw [relearn, takeWindowRelearn_writes (by rw [window]; exact p)]
    refine ⟨_, rfl, ?_⟩
    have written := written_window (d := d) { (windowAt s d).record with travel := none, refs := Vector.replicate 16 none }
      (taken_link_state 1 s)
    rw [window] at written ⊢
    exact written

end Sys2Proof.Machine

/-! Motors that start, coasts that end (05, R89 to R92). -/

namespace Sys2Proof.Machine

open Sys2Proof

section
variable {d : Door} {s : State}

/-! ### A motor started -/

section
variable {m : Movement}

theorem startMotor_denied {r : Reason}
    (h : moveDenial s.latches.crashHold (windowAt s d) (fixDirection (windowAt s d) m).dir
      (fixDirection (windowAt s d) m).mode = some r) :
    startMotor d m s = toIdle d (tellMove d m (.denied r) s) := by
  unfold startMotor
  simp only [h]

variable (h : moveDenial s.latches.crashHold (windowAt s d) (fixDirection (windowAt s d) m).dir
  (fixDirection (windowAt s d) m).mode = none)
include h

theorem startMotor_reached (loose : m.fixed = false) (there : atTarget (windowAt s d) m = true) :
    startMotor d m s = toIdle d (tellMove d m .done s) := by
  unfold startMotor
  simp only [h]
  exact if_pos ⟨loose, there⟩

theorem startMotor_runs (k : m.fixed = true ∨ atTarget (windowAt s d) m = false) : startMotor d m s =
    setWindow d { windowAt s d with
      phase := .running, followOn := none,
      motion := some { freshMotion (fixDirection (windowAt s d) m) with started := some s.now } } s := by
  unfold startMotor
  simp only [h]
  refine if_neg ?_
  rintro ⟨loose, there⟩
  rw [loose, there] at k
  exact k.elim (by nofun) (by nofun)

end

theorem motorStart_marking {m : Motion} (p : (windowAt s d).phase = .marking) (e : (windowAt s d).motion = some m) :
    motorStart d s = if startHeldBack s d then s else startMotor d m.move s := by
  unfold motorStart
  simp only [p, e]

/-! ### A coast's end -/

theorem coastEnd_coasting (p : (windowAt s d).phase = .coasting) :
    coastEnd d s = comeToRest d (clockTo (windowAt s d).coastEnd s) := if_pos p

theorem comeToRest_follows {m : Movement} (e : (windowAt s d).followOn = some m) : comeToRest d s =
    let w := applyPending (windowAt s d)
    let s1 := setWindow d w s
    if startHeldBack s1 d then
      setWindow d { w with phase := .marking, followOn := none, motion := some (freshMotion (fixReversal d w s.now m)) } s1
    else startMotor d (fixReversal d w s.now m) s1 := by
  unfold comeToRest
  have follows : (applyPending (windowAt s d)).followOn = some m := e
  simp only [follows]
  rfl

theorem fixReversal_plain {m : Movement} (h : m.mode ≠ .reversal) (w : Window) (now : Nat) : fixReversal d w now m = m :=
  if_neg h

theorem fixReversal_unlimited {m : Movement} (h : m.mode = .reversal) (e : m.amount = none) (w : Window) (now : Nat) :
    fixReversal d w now m = { m with target := some 4024 } := by
  unfold fixReversal
  rw [if_pos h]
  simp only [e]

theorem fixReversal_amount {m : Movement} {n : Nat} (h : m.mode = .reversal) (e : m.amount = some n) (w : Window) (now : Nat) :
    fixReversal d w now m = { m with
      target := some (if w.known then w.record.position + n else Config.lostTarget (apertureCode (doorAperture d)) now) } := by
  unfold fixReversal
  rw [if_pos h]
  simp only [e]

/-! ### The record of a window at rest -/

section
variable (w : Window)

theorem settledRecord_position : (settledRecord w).position = w.record.position := by
  simp only [settledRecord, applyPending]
  split <;> split <;> rfl

variable {w}

theorem settledRecord_setup {n : Nat} {auto : Bool} (h : w.pendingSetup = some (n, auto)) :
    (settledRecord w).level = n ∧ (settledRecord w).autoClose = auto := by
  simp only [settledRecord, applyPending, h, and_self]

theorem settledRecord_relearn (h : w.pendingRelearn = true) : (settledRecord w).travel = none := by
  simp only [settledRecord, applyPending, h, if_true]
  split <;> rfl

end

end

/-- Settles O41. -/
theorem motorsStartAndCoastsEnd : Obligations.MotorsStartAndCoastsEnd := by
  have starts : ∀ {d : Door} {s : State}, s.power = .running →
      exec (.motorStart d) s = .next (finishEvent (motorStart d s)) :=
    fun {d _} power => event_running (fun s => finishEvent (motorStart d s)) power
  have ends : ∀ {d : Door} {s : State}, s.power = .running →
      exec (.coastEnd d) s = .next (finishEvent (coastEnd d s)) :=
    fun {d _} power => event_running (fun s => finishEvent (coastEnd d s)) power
  refine ⟨?runs, ?answers, ?follows, ?rests⟩
  case runs =>
    intro d m s power rests p e free m' allowed way
    rw [starts power, motorStart_marking p e, free, if_neg (by nofun), startMotor_runs allowed way]
    exact congrArg Host.Outcome.next (finishEvent_settled (rests.setWindow d _))
  case answers =>
    intro d m s power p e m'
    rw [starts power, motorStart_marking p e]
    refine ⟨fun waits => ?_, fun r free denied => ?_, fun free allowed loose there => ?_⟩
    · rw [if_pos waits]
    · rw [free, if_neg (by nofun), startMotor_denied denied]
    · rw [free, if_neg (by nofun), startMotor_reached allowed loose there]
  case follows =>
    intro d m s power p e w s1 m'
    have known : ∀ n, m.mode = .reversal → m.amount = some n → m' = { m with
        target := some (if w.known then w.record.position + n
          else Config.lostTarget (apertureCode (doorAperture d)) s1.now) } :=
      fun n r a => fixReversal_amount r a w s1.now
    have rest : exec (.coastEnd d) s = .next (finishEvent (if startHeldBack s1 d then
        setWindow d { w with phase := .marking, followOn := none, motion := some (freshMotion m') } s1
        else startMotor d m' s1)) := by
      rw [ends power, coastEnd_coasting p, comeToRest_follows (s := clockTo _ s) e]
      rfl
    refine ⟨fun h => fixReversal_plain h w s1.now, fun h a => fixReversal_unlimited h a w s1.now,
      fun n r a k => ?_, fun n r a k => ?_, fun waits => ?_, fun free => ?_⟩
    · rw [known n r a, if_pos k]
    · rw [known n r a, if_neg (by rw [k]; nofun)]
    · rw [rest, if_pos waits]
    · rw [rest, if_neg (by rw [free]; nofun)]
  case rests =>
    intro d s power rests p e
    have settled : Settled (toIdle d (clockTo (windowAt s d).coastEnd s)) := by
      rw [toIdle_eq]
      exact (((rests.clockTo _).setWindow d _).offer _ _ _)
    rw [ends power, coastEnd_coasting p, comeToRest_alone (s := clockTo _ s) e, finishEvent_settled settled]
    have window : windowAt (toIdle d (clockTo (windowAt s d).coastEnd s)) d = stillWindow (windowAt s d) := windowAt_toIdle d _
    refine ⟨_, rfl, ?_⟩
    have stands := toIdle_stands d (clockTo (windowAt s d).coastEnd s)
    rw [window] at stands ⊢
    exact ⟨rfl, rfl, rfl, settledRecord_position _, rfl, rfl, fun n auto h => settledRecord_setup h,
      fun h => settledRecord_relearn h, stands, by rw [toIdle_eq]; rfl⟩

end Sys2Proof.Machine

/-! Stalls and faults end movements (05, R96 to R101). -/

namespace Sys2Proof.Machine

open Sys2Proof

section
variable {d : Door} {s : State}

/-! ### A movement ended -/

theorem endRunning_eq (d : Door) (o : OpOutcome) (s : State) :
    endRunning d o s = setWindow d (coast s.now (windowAt s d)) (tellMotion d o s) := by
  have now : (tellMotion d o s).now = s.now := by simp
  unfold endRunning
  dsimp only
  rw [now, windowAt_tellMotion]

@[simp] theorem windowAt_endRunning (d : Door) (o : OpOutcome) (s : State) :
    windowAt (endRunning d o s) d = coast s.now (windowAt s d) := by
  rw [endRunning_eq, windowAt_setWindow_same]

theorem endRunning_told {m : Motion} (e : (windowAt s d).motion = some m) (o : OpOutcome) {t : Trigger}
    (chain : m.move.requester = .chain t) {g : Tag} (mem : g ∈ m.move.tags) :
    { trigger := t, serial := g.serial, count := g.count, aperture := doorAperture d, outcome := o } ∈
      (endRunning d o s).mail := by
  rw [endRunning_eq]
  exact stopTold_told e o chain mem

theorem windowAt_recordFault (d : Door) (f : WindowFault) (s : State) :
    windowAt (recordFault d f s) d = { windowAt s d with lastFault := f } := windowAt_setWindow_same d _ s

theorem windowAt_windowFault (d : Door) (f : WindowFault) (s : State) :
    windowAt (windowFault d f s) d = coast s.now { windowAt s d with lastFault := f } := by
  rw [windowFault, windowAt_endRunning, windowAt_recordFault]
  rfl

theorem windowFault_raised (d : Door) (f : WindowFault) (s : State) : raised .windowFault (windowFault d f s) = true :=
  (endRunning_moves d _ _).kept.raised (raised_raise .windowFault _)

/-! ### A pinch (05, R98) -/

/-- The movement that follows a pinch. -/
def afterPinch (w : Window) : Option Movement :=
  if w.pinchCount < 3 then
    match reversalAmount w with
    | none => w.followOn
    | some n => some (reversalMove n)
  else w.followOn

/-- The window a pinch leaves. -/
def pinched (now : Nat) (w : Window) : Window :=
  { coast now w with pinchCount := min 3 (w.pinchCount + 1), followOn := afterPinch w }

/-- The window's movement ended, its pinch counted. -/
def pinchCounted (d : Door) (s : State) : State :=
  setWindow d { coast s.now (windowAt s d) with pinchCount := min 3 ((windowAt s d).pinchCount + 1) }
    (raise .pinch (endRunning d (.fault .pinch) s))

theorem windowAt_pinchCounted (d : Door) (s : State) : windowAt (pinchCounted d s) d =
    { coast s.now (windowAt s d) with pinchCount := min 3 ((windowAt s d).pinchCount + 1) } :=
  windowAt_setWindow_same d _ _

theorem pinchCounted_eq (d : Door) (s : State) :
    setWindow d { windowAt (raise .pinch (endRunning d (.fault .pinch) s)) d with
      pinchCount := min 3 ((windowAt s d).pinchCount + 1) } (raise .pinch (endRunning d (.fault .pinch) s)) =
        pinchCounted d s := by
  have same : windowAt (raise .pinch (endRunning d (.fault .pinch) s)) d = coast s.now (windowAt s d) :=
    windowAt_endRunning d _ s
  rw [same]
  rfl

theorem reversalAmount_pinchCounted (d : Door) (s : State) :
    reversalAmount (windowAt (pinchCounted d s) d) = reversalAmount (windowAt s d) := by
  rw [windowAt_pinchCounted]
  rfl

theorem pinch_eq (d : Door) (s : State) : pinch d s =
    if (windowAt s d).pinchCount < 3 then
      match reversalAmount (windowAt s d) with
      | none => pinchCounted d s
      | some n => setWindow d { windowAt (pinchCounted d s) d with followOn := some (reversalMove n) }
          (removeFollowOn d (some .overridden) (pinchCounted d s))
    else pinchCounted d s := by
  unfold pinch
  simp only [pinchCounted_eq, reversalAmount_pinchCounted, removeFollowOn_window] <;> rfl

theorem windowAt_pinch (d : Door) (s : State) : windowAt (pinch d s) d = pinched s.now (windowAt s d) := by
  rw [pinch_eq]
  unfold pinched afterPinch
  split
  · split
    · next e => exact windowAt_pinchCounted d s
    · next n e => rw [windowAt_setWindow_same, windowAt_pinchCounted]
  · exact windowAt_pinchCounted d s

theorem pinchCounted_raised (d : Door) (s : State) : raised .pinch (pinchCounted d s) = true :=
  raised_raise .pinch (endRunning d (.fault .pinch) s)

theorem pinch_raised (d : Door) (s : State) : raised .pinch (pinch d s) = true := by
  rw [pinch_eq]
  split
  · split
    · exact pinchCounted_raised d s
    · exact (removeFollowOn_moves d _ _).kept.raised (pinchCounted_raised d s)
  · exact pinchCounted_raised d s

theorem mem_pinch_mail {n : Notice} (h : n ∈ (endRunning d (.fault .pinch) s).mail) : n ∈ (pinch d s).mail := by
  rw [pinch_eq]
  split
  · split
    · exact h
    · exact mem_removeFollowOn_mail (s := pinchCounted d s) h _
  · exact h

/-! ### The ends of the travel (05, R99, R100) -/

theorem look_updateRefs (r : Vector (Option Nat) 16) (z : Vector (Nat × Nat) 16) (i : Fin 16) :
    look (updateRefs r z) i = updateRef (look r i) (look z i) := by
  simp [updateRefs, look]

theorem updateRef_unmeasured {r : Option Nat} {z : Nat × Nat} (h : z.2 = 0) : updateRef r z = r := if_pos h

theorem updateRef_first {z : Nat × Nat} (h : 0 < z.2) : updateRef none z = some (max 150 (min 65535 (z.1 / z.2))) := by
  rw [← clampTo_eq_max_min (by omega)]
  exact if_neg (Nat.ne_of_gt h)

theorem updateRef_next {z : Nat × Nat} (h : 0 < z.2) (x : Nat) : updateRef (some x) z =
    some (clampTo 150 65535 (((x : Int) + (((z.1 / z.2 : Nat) : Int) - (x : Int)).tdiv 8).toNat)) :=
  if_neg (Nat.ne_of_gt h)

/-- An eighth of the way up to the mean. -/
theorem approach_up {x mean : Nat} (h : x ≤ mean) :
    ((x : Int) + ((mean : Int) - (x : Int)).tdiv 8).toNat = x + (mean - x) / 8 := by
  rw [Int.tdiv_eq_ediv_of_nonneg (by omega)]
  omega

/-- An eighth of the way down to it. -/
theorem approach_down {x mean : Nat} (h : mean < x) :
    ((x : Int) + ((mean : Int) - (x : Int)).tdiv 8).toNat = x - (x - mean) / 8 := by
  have turned : (mean : Int) - (x : Int) = -((x : Int) - (mean : Int)) := by omega
  rw [turned, Int.neg_tdiv, Int.tdiv_eq_ediv_of_nonneg (by omega)]
  omega

/-- The window a stall at the top leaves. -/
def closedWindow (now : Nat) (w : Window) : Window :=
  coast now { w with known := true, pinchCount := 0, record := { w.record with
    position := 0,
    refs := match w.motion with
      | some m => updateRefs w.record.refs m.zones
      | none => w.record.refs } }

theorem windowAt_topStop (d : Door) (s : State) : windowAt (topStop d s) d = closedWindow s.now (windowAt s d) := by
  unfold topStop
  rw [windowAt_endRunning, windowAt_setWindow_same]
  rfl

theorem topStop_told {m : Motion} (e : (windowAt s d).motion = some m) {t : Trigger}
    (chain : m.move.requester = .chain t) {g : Tag} (mem : g ∈ m.move.tags) :
    { trigger := t, serial := g.serial, count := g.count, aperture := doorAperture d, outcome := .done } ∈
      (topStop d s).mail := by
  unfold topStop
  exact endRunning_told (by rw [windowAt_setWindow_same]; exact e) _ chain mem

theorem bottomStop_learned {l : Nat} (e : (windowAt s d).record.travel = some l) : windowAt (bottomStop d s) d =
    coast s.now { windowAt s d with record := { (windowAt s d).record with position := l } } := by
  unfold bottomStop
  simp only [e]
  rw [windowAt_endRunning, windowAt_setWindow_same]
  rfl

section
variable (e : (windowAt s d).record.travel = none)
include e

theorem bottomStop_learns (h : 200 ≤ (windowAt s d).record.position) (k : (windowAt s d).record.position ≤ 4000) :
    windowAt (bottomStop d s) d = coast s.now { windowAt s d with
      record := { (windowAt s d).record with travel := some (windowAt s d).record.position } } := by
  unfold bottomStop
  simp only [e, h, k, and_self, if_true]
  rw [windowAt_endRunning, windowAt_setWindow_same]
  rfl

theorem bottomStop_fails (h : (windowAt s d).record.position < 200 ∨ 4000 < (windowAt s d).record.position) :
    bottomStop d s = raise .learnFail (endRunning d .done s) := by
  unfold bottomStop
  simp only [e]
  exact if_neg (by omega)

end

theorem bottomStop_phase (d : Door) (s : State) : (windowAt (bottomStop d s) d).phase = .coasting := by
  cases e : (windowAt s d).record.travel with
  | some l => rw [bottomStop_learned e]; rfl
  | none =>
    by_cases h : (windowAt s d).record.position < 200 ∨ 4000 < (windowAt s d).record.position
    · rw [bottomStop_fails e h]
      exact congrArg Window.phase (windowAt_endRunning d _ s)
    · rw [bottomStop_learns e (by omega) (by omega)]
      rfl

/-! ### A stall told apart (05, R97) -/

theorem classifyStall_top (h : (windowAt s d).known = false ∨ (windowAt s d).record.position ≤ 12) :
    classifyStall d .closing s = topStop d s := by
  unfold classifyStall
  dsimp only
  split
  · rfl
  · next known => exact if_pos (h.resolve_left known)

theorem classifyStall_pinch (known : (windowAt s d).known = true) (h : 13 ≤ (windowAt s d).record.position) :
    classifyStall d .closing s = pinch d s := by
  unfold classifyStall
  dsimp only
  rw [known, if_neg (by nofun), if_neg (by omega)]

theorem classifyStall_lost (h : (windowAt s d).known = false) : classifyStall d .opening s = windowFault d .stall s := by
  unfold classifyStall
  dsimp only
  rw [if_pos h]

section
variable (known : (windowAt s d).known = true)
include known

theorem classifyStall_bottom {l : Nat} (e : (windowAt s d).record.travel = some l) :
    classifyStall d .opening s =
      if l ≤ (windowAt s d).record.position + 12 then bottomStop d s else windowFault d .stall s := by
  unfold classifyStall
  simp only [known, Bool.true_eq_false, if_false, e]

theorem classifyStall_learning (e : (windowAt s d).record.travel = none) :
    classifyStall d .opening s = bottomStop d s := by
  unfold classifyStall
  simp only [known, Bool.true_eq_false, if_false, e]

end

theorem classifyStall_phase (d : Door) (dir : Direction) (s : State) :
    (windowAt (classifyStall d dir s) d).phase = .coasting := by
  have fault : (windowAt (windowFault d .stall s) d).phase = .coasting := by rw [windowAt_windowFault]; rfl
  cases dir with
  | closing =>
    unfold classifyStall
    dsimp only
    split
    · rw [windowAt_topStop]; rfl
    · split
      · rw [windowAt_topStop]; rfl
      · rw [windowAt_pinch]; rfl
  | opening =>
    unfold classifyStall
    dsimp only
    split
    · exact fault
    · split
      · split
        · exact bottomStop_phase d s
        · exact fault
      · exact bottomStop_phase d s

/-! ### The three limits of a running motor -/

section
variable {m : Motion} (p : (windowAt s d).phase = .running) (k : (windowAt s d).motion = some m)
include p k

theorem stallTimeout_stalls {e : Nat} (pulses : 1 ≤ m.pulses) (last : (windowAt s d).lastEdge = some e) :
    stallTimeout d s = classifyStall d m.move.dir (clockTo (e + ms 60) s) := by
  unfold stallTimeout
  simp only [p, k, last]
  exact if_neg (by omega)

theorem noPulses_faults {e : Nat} (none : m.pulses = 0) (start : m.started = some e) :
    noPulses d s = windowFault d .noPulses (clockTo (e + ms 300) s) := by
  unfold noPulses
  simp only [p, k, none, start, if_true]
  rfl

theorem runLimit_faults {e : Nat} (start : m.started = some e) :
    runLimit d s = windowFault d .runLimit (clockTo (e + ms 8000) s) := by
  unfold runLimit
  simp only [p, k, start]
  rfl

end

end

/-- Settles O48. -/
theorem stallsAndFaultsEndMovements : Obligations.StallsAndFaultsEndMovements := by
  intro d m s power p k w
  refine ⟨fun e pulses last => ⟨stallTimeout d s, event_running (fun s => finishEvent (stallTimeout d s)) power, ?stall⟩,
    fun e none start => ⟨noPulses d s, event_running (fun s => finishEvent (noPulses d s)) power, ?noPulses⟩,
    fun e start => ⟨runLimit d s, event_running (fun s => finishEvent (runLimit d s)) power, ?runLimit⟩⟩
  case stall =>
    rw [stallTimeout_stalls p k pulses last]
    generalize hx : clockTo (e + ms 60) s = x
    have window : windowAt x d = w := by rw [← hx]; rfl
    have now : x.now = max s.now (e + ms 60) := by rw [← hx]; rfl
    have motion : (windowAt x d).motion = some m := by rw [window]; exact k
    refine ⟨classifyStall_phase d _ x, by simp [now], ?_⟩
    clear_value w
    subst window
    clear hx last k p pulses
    refine ⟨fun dir known high => ?_, fun dir low => ?_, fun l dir known travel low => ?_, fun l dir known travel high => ?_,
      fun dir lost => ?_, fun dir known travel => ⟨fun h k => ?_, fun h => ?_⟩⟩ <;> rw [dir]
    · rw [classifyStall_pinch known high, windowAt_pinch]
      refine ⟨rfl, pinch_raised d x, rfl, fun few travel => ?_, fun l few travel below => ?_, fun many => ?_⟩
      · exact ⟨reversalMove none, by simp [pinched, afterPinch, few, reversalAmount, travel], rfl, rfl, rfl⟩
      · refine ⟨reversalMove (some (min 120 (l - (windowAt x d).record.position))), ?_, rfl, rfl, rfl⟩
        simp [pinched, afterPinch, few, reversalAmount, travel, Nat.not_le.2 below]
      · simp [pinched, afterPinch, Nat.not_lt.2 many]
    · rw [classifyStall_top low, windowAt_topStop]
      refine ⟨rfl, rfl, rfl, rfl, fun z => ?_, fun t chain g mem => topStop_told motion chain mem⟩
      intro now old count mean
      have next : now = updateRef old (look m.zones z) := by
        simp only [now, closedWindow, coast, motion]
        exact look_updateRefs _ _ z
      rw [next]
      refine ⟨fun none => updateRef_unmeasured none, fun some first => ?_, fun y some ref => ?_⟩
      · rw [first, updateRef_first some]
      · rw [ref, updateRef_next some, clampTo_eq_max_min (by omega)]
        refine ⟨fun up => ?_, fun down => ?_⟩
        · rw [approach_up up]
        · rw [approach_down down]
    · rw [classifyStall_bottom known travel, if_pos low, bottomStop_learned travel]
      rfl
    · rw [classifyStall_bottom known travel, if_neg (by omega), windowAt_windowFault]
      exact ⟨rfl, windowFault_raised d _ x⟩
    · rw [classifyStall_lost lost, windowAt_windowFault]
      exact ⟨rfl, windowFault_raised d _ x, rfl, lost⟩
    · rw [classifyStall_learning known travel, bottomStop_learns travel h k]
      rfl
    · rw [classifyStall_learning known travel, bottomStop_fails travel h]
      refine ⟨?_, raised_raise .learnFail _⟩
      exact (congrArg (fun w => w.record.travel) (windowAt_endRunning d _ x)).trans travel
  case noPulses =>
    rw [noPulses_faults p k none start, windowAt_windowFault]
    exact ⟨rfl, rfl, windowFault_raised d _ _, by simp, rfl, rfl⟩
  case runLimit =>
    rw [runLimit_faults p k start, windowAt_windowFault]
    exact ⟨rfl, rfl, windowFault_raised d _ _, by simp, rfl, rfl⟩

end Sys2Proof.Machine

/-! Edges of the Hall sensor (05, R93 to R98): the position counted, the period scored, a pinch found. -/

namespace Sys2Proof.Machine

open Sys2Proof

section
variable {d : Door} {m : Motion} {s : State}

/-! ### Which edges count -/

theorem hallEdge_still (h : (windowAt s d).phase = .idle ∨ (windowAt s d).phase = .marking) (gap : Nat) :
    hallEdge d gap s = s := by
  unfold hallEdge
  dsimp only
  split
  · rfl
  · obtain p | p := h <;> simp [p]

section
variable (e : (windowAt s d).motion = some m) (gap : Nat)
include e

theorem hallEdge_close {t : Nat} (moves : (windowAt s d).phase = .running ∨ (windowAt s d).phase = .coasting)
    (last : (windowAt s d).lastEdge = some t) (close : max s.now (edgeOrigin (windowAt s d) m + gap) - t < 150) :
    hallEdge d gap s = clockTo (edgeOrigin (windowAt s d) m + gap) s := by
  have near : (clockTo (edgeOrigin (windowAt s d) m + gap) s).now - t < Times.edgeSpacing := close
  obtain p | p := moves <;> unfold hallEdge <;> simp only [e, p, last, true_or, or_true, if_true, near, decide_true]

variable (spaced : ∀ t, (windowAt s d).lastEdge = some t → 150 ≤ max s.now (edgeOrigin (windowAt s d) m + gap) - t)
include spaced

omit e in
/-- An edge far enough from the last is not taken for its bounce. -/
theorem edge_apart : (match (windowAt s d).lastEdge with
    | some t => decide ((clockTo (edgeOrigin (windowAt s d) m + gap) s).now - t < Times.edgeSpacing)
    | none => false) = false := by
  split
  · next t last => exact decide_eq_false (Nat.not_lt.2 (spaced t last))
  · rfl

theorem hallEdge_running (p : (windowAt s d).phase = .running) : hallEdge d gap s =
    let s1 := clockTo (edgeOrigin (windowAt s d) m + gap) s
    runningEdge d m (min 65535 (s1.now - edgeOrigin (windowAt s d) m)) s1 := by
  have apart := edge_apart gap spaced
  unfold hallEdge
  simp only [e, p, true_or, if_true]
  exact if_neg (fun close => absurd (apart.symm.trans close) (by nofun))

theorem hallEdge_coasting (p : (windowAt s d).phase = .coasting) : hallEdge d gap s =
    coastingEdge d m (clockTo (edgeOrigin (windowAt s d) m + gap) s) := by
  have apart := edge_apart gap spaced
  unfold hallEdge
  simp only [e, p, or_true, if_true]
  exact if_neg (fun close => absurd (apart.symm.trans close) (by nofun))

end

/-! ### The position counted (05, R94) -/

/-- The position after one more edge. -/
def stepped (dir : Direction) (position : Nat) : Nat :=
  match dir with
  | .closing => position - 1
  | .opening => position + 1

theorem countEdge_known {w : Window} (h : w.known = true) (dir : Direction) :
    countEdge w dir = { w with record := { w.record with position := stepped dir w.record.position } } := if_pos h

theorem countEdge_lost {w : Window} (h : w.known = false) (dir : Direction) : countEdge w dir = w :=
  if_neg (by rw [h]; nofun)

/-- The motion with one more pulse. -/
def pulsed (m : Motion) : Motion := { m with pulses := m.pulses + 1 }

/-- The window when an edge is seen, before its position is counted. -/
def edgeSeen (now : Nat) (m : Motion) (w : Window) : Window := { w with lastEdge := some now, motion := some (pulsed m) }

theorem runningEdge_eq (period : Nat) : runningEdge d m period s =
    let w := edgeSeen s.now m (windowAt s d)
    if w.known && edgeLeavesBound w m.move.dir then
      windowFault d .positionLost (setWindow d { w with known := false } s)
    else
      let w := countEdge w m.move.dir
      match w.record.travel with
      | some l =>
        if evaluated w (pulsed m) then
          let n := evaluate w (pulsed m) l period s.vehicle.supply
          let s := setWindow d { w with motion := some n } s
          if 96 ≤ n.score then pinch d s
          else if targetReached w m.move then endRunning d .done s else s
        else if targetReached w m.move then endRunning d .done (setWindow d w s) else setWindow d w s
      | none => if targetReached w m.move then endRunning d .done (setWindow d w s) else setWindow d w s := by
  unfold runningEdge
  rfl

theorem runningEdge_leaves (known : (windowAt s d).known = true) (leaves : edgeLeavesBound (windowAt s d) m.move.dir = true)
    (period : Nat) : runningEdge d m period s =
      windowFault d .positionLost (setWindow d { edgeSeen s.now m (windowAt s d) with known := false } s) := by
  have out : ((edgeSeen s.now m (windowAt s d)).known && edgeLeavesBound (edgeSeen s.now m (windowAt s d)) m.move.dir) = true := by
    rw [Bool.and_eq_true]
    exact ⟨known, leaves⟩
  rw [runningEdge_eq]
  exact if_pos out

section
variable (stays : (windowAt s d).known = true → edgeLeavesBound (windowAt s d) m.move.dir = false)
include stays

theorem edge_stays : ¬((edgeSeen s.now m (windowAt s d)).known && edgeLeavesBound (edgeSeen s.now m (windowAt s d)) m.move.dir) = true := by
  rw [Bool.and_eq_true]
  rintro ⟨known, leaves⟩
  have leaves : edgeLeavesBound (windowAt s d) m.move.dir = true := leaves
  rw [stays known] at leaves
  cases leaves

theorem runningEdge_counts (plain : evaluated (countEdge (edgeSeen s.now m (windowAt s d)) m.move.dir) (pulsed m) = false)
    (period : Nat) : runningEdge d m period s =
      let w := countEdge (edgeSeen s.now m (windowAt s d)) m.move.dir
      if targetReached w m.move then endRunning d .done (setWindow d w s) else setWindow d w s := by
  rw [runningEdge_eq]
  dsimp only
  rw [if_neg (edge_stays stays)]
  split
  · exact if_neg (by rw [plain]; nofun)
  · rfl

theorem runningEdge_evaluates {l : Nat}
    (travel : (countEdge (edgeSeen s.now m (windowAt s d)) m.move.dir).record.travel = some l)
    (scored : evaluated (countEdge (edgeSeen s.now m (windowAt s d)) m.move.dir) (pulsed m) = true)
    (period : Nat) : runningEdge d m period s =
      let w := countEdge (edgeSeen s.now m (windowAt s d)) m.move.dir
      let n := evaluate w (pulsed m) l period s.vehicle.supply
      let t := setWindow d { w with motion := some n } s
      if 96 ≤ n.score then pinch d t else if targetReached w m.move then endRunning d .done t else t := by
  rw [runningEdge_eq]
  dsimp only
  rw [if_neg (edge_stays stays)]
  simp only [travel]
  exact if_pos scored

end

theorem coastingEdge_leaves (known : (windowAt s d).known = true)
    (leaves : edgeLeavesBound (windowAt s d) m.move.dir = true) : coastingEdge d m s =
      raise .windowFault (setWindow d
        { windowAt s d with lastEdge := some s.now, known := false, lastFault := .positionLost } s) := by
  have out : ((windowAt s d).known && edgeLeavesBound { windowAt s d with lastEdge := some s.now } m.move.dir) = true := by
    rw [Bool.and_eq_true]
    exact ⟨known, leaves⟩
  unfold coastingEdge
  refine (if_pos out).trans ?_
  rw [recordFault, windowAt_setWindow_same, setWindow_twice]

theorem coastingEdge_counts (stays : (windowAt s d).known = true → edgeLeavesBound (windowAt s d) m.move.dir = false) :
    coastingEdge d m s = setWindow d (countEdge { windowAt s d with lastEdge := some s.now } m.move.dir) s := by
  unfold coastingEdge
  refine if_neg ?_
  rw [Bool.and_eq_true]
  rintro ⟨known, leaves⟩
  have leaves : edgeLeavesBound (windowAt s d) m.move.dir = true := leaves
  rw [stays known] at leaves
  cases leaves

end

/-- Settles O42. -/
theorem edgesMoveThePosition : Obligations.EdgesMoveThePosition := by
  have edge : ∀ {d : Door} {gap : Nat} {s : State}, s.power = .running →
      exec (.hallEdge d gap) s = .next (finishEvent (hallEdge d gap s)) :=
    fun {d gap _} power => event_running (fun s => finishEvent (hallEdge d gap s)) power
  refine ⟨fun d gap s power rests still => ?_, fun d gap m s power rests e => ?_⟩
  · rw [edge power, hallEdge_still still, finishEvent_settled rests]
  intro w s1 m1 p1 w1 spaced
  have counted : w.known = true → countEdge (edgeSeen s1.now m w) m.move.dir = w1 :=
    fun known => countEdge_known (w := edgeSeen s1.now m w) known _
  have runs : spaced → w.phase = .running → exec (.hallEdge d gap) s =
      .next (finishEvent (runningEdge d m (min 65535 (s1.now - edgeOrigin w m)) s1)) := fun apart p => by
    rw [edge power, hallEdge_running e gap apart p]
  have coasts : spaced → w.phase = .coasting → exec (.hallEdge d gap) s = .next (finishEvent (coastingEdge d m s1)) :=
    fun apart p => by rw [edge power, hallEdge_coasting e gap apart p]
  have still : Settled s1 := rests.clockTo _
  refine ⟨fun apart p known stays plain => ?count, fun apart p known leaves => ?leave, fun apart p lost => ?lost,
    fun apart p known stays => ?coast, fun apart p lost => ?coastLost, fun apart p known leaves => ?coastLeave,
    fun t moves last close => ?close⟩
  case count =>
    rw [runs apart p, runningEdge_counts (s := s1) (fun _ => stays) ((congrArg (evaluated · m1) (counted known)).trans plain)]
    have same : countEdge (edgeSeen s1.now m (windowAt s1 d)) m.move.dir = w1 := counted known
    rw [same]
    dsimp only
    refine ⟨fun goes => ?_, fun there => ?_⟩
    · rw [goes]
      exact congrArg Host.Outcome.next (finishEvent_settled (still.setWindow d w1))
    · rw [there]
      have window : windowAt (endRunning d .done (setWindow d w1 s1)) d = coast s1.now w1 := by
        rw [windowAt_endRunning, windowAt_setWindow_same]
        rfl
      refine ⟨_, rfl, ?_, ?_, ?_, ?_⟩ <;> refine (congrArg _ window).trans ?_
      · rfl
      · rfl
      · exact known
      · rfl
  case leave =>
    rw [runs apart p, runningEdge_leaves (s := s1) known leaves]
    refine ⟨_, rfl, ?_⟩
    rw [windowAt_windowFault, windowAt_setWindow_same]
    exact ⟨rfl, rfl, rfl, windowFault_raised d _ _, rfl⟩
  case lost =>
    have unknown : (windowAt s1 d).known = false := lost
    have same : countEdge (edgeSeen s1.now m (windowAt s1 d)) m.move.dir = edgeSeen s1.now m w :=
      countEdge_lost (w := edgeSeen s1.now m w) lost _
    rw [runs apart p, runningEdge_counts (s := s1) (fun known => by rw [unknown] at known; cases known)
      (by rw [same]; simp [evaluated, edgeSeen, lost]), same]
    have goes : targetReached (edgeSeen s1.now m w) m.move = false := by simp [targetReached, edgeSeen, lost]
    dsimp only
    rw [goes]
    exact congrArg Host.Outcome.next (finishEvent_settled (still.setWindow d _))
  case coast =>
    rw [coasts apart p, coastingEdge_counts (s := s1) (fun _ => stays)]
    have same : countEdge { windowAt s1 d with lastEdge := some s1.now } m.move.dir = { w1 with motion := some m } := by
      have kept : some m = (windowAt s1 d).motion := e.symm
      rw [kept]
      exact countEdge_known (w := { w with lastEdge := some s1.now }) known _
    rw [same]
    exact congrArg Host.Outcome.next (finishEvent_settled (still.setWindow d _))
  case coastLost =>
    have unknown : (windowAt s1 d).known = false := lost
    have same : countEdge { windowAt s1 d with lastEdge := some s1.now } m.move.dir = { w with lastEdge := some s1.now } :=
      countEdge_lost (w := { w with lastEdge := some s1.now }) lost _
    rw [coasts apart p, coastingEdge_counts (s := s1) (fun known => by rw [unknown] at known; cases known), same]
    exact congrArg Host.Outcome.next (finishEvent_settled (still.setWindow d _))
  case coastLeave =>
    rw [coasts apart p, coastingEdge_leaves (s := s1) known leaves]
    exact congrArg Host.Outcome.next (finishEvent_settled ((still.setWindow d _).raise _))
  case close =>
    rw [edge power, hallEdge_close e gap moves last close]
    exact congrArg Host.Outcome.next (finishEvent_settled still)

end Sys2Proof.Machine

/-! Edges whose period is evaluated (05, R96 to R98): scored, and a pinch where the score is high. -/

namespace Sys2Proof.Machine

open Sys2Proof

section
variable {d : Door} {s : State}

theorem pinch_told {m : Motion} (e : (windowAt s d).motion = some m) {t : Trigger} (chain : m.move.requester = .chain t)
    {g : Tag} (mem : g ∈ m.move.tags) :
    { trigger := t, serial := g.serial, count := g.count, aperture := doorAperture d, outcome := .fault .pinch } ∈
      (pinch d s).mail := mem_pinch_mail (endRunning_told e _ chain mem)

/-- The movement that was to follow makes way for the reversal, and its requester is told. -/
theorem pinch_drops {v : Movement} (few : (windowAt s d).pinchCount < 3) {n : Option Nat}
    (turns : reversalAmount (windowAt s d) = some n) (follows : (windowAt s d).followOn = some v) {t : Trigger}
    (chain : v.requester = .chain t) {g : Tag} (mem : g ∈ v.tags) :
    { trigger := t, serial := g.serial, count := g.count, aperture := doorAperture d, outcome := .overridden } ∈
      (pinch d s).mail := by
  have stays : (windowAt (pinchCounted d s) d).followOn = some v := by
    rw [windowAt_pinchCounted]
    exact follows
  rw [pinch_eq, if_pos few, turns]
  show _ ∈ (removeFollowOn d (some .overridden) (pinchCounted d s)).mail
  rw [removeFollowOn_some stays, tellMove]
  exact told_of_chain chain mem _ _ _

theorem reversalAmount_below {w : Window} {l : Nat} (travel : w.record.travel = some l) (h : w.record.position < l) :
    reversalAmount w = some (some (min 120 (l - w.record.position))) := by
  unfold reversalAmount
  simp only [travel, if_neg (Nat.not_le.2 h)]

theorem reversalAmount_open {w : Window} {l : Nat} (travel : w.record.travel = some l) (h : l ≤ w.record.position) :
    reversalAmount w = none := by
  unfold reversalAmount
  simp only [travel, if_pos h]

theorem afterPinch_turns {w : Window} (few : w.pinchCount < 3) {n : Option Nat} (h : reversalAmount w = some n) :
    afterPinch w = some (reversalMove n) := by
  rw [afterPinch, if_pos few, h]

theorem afterPinch_keeps {w : Window} (h : 3 ≤ w.pinchCount ∨ reversalAmount w = none) : afterPinch w = w.followOn := by
  unfold afterPinch
  split
  · next few => rw [h.resolve_left (Nat.not_le.2 few)]
  · rfl

end

/-- Settles O43. -/
theorem evaluatedEdgesScoreAndPinch : Obligations.EvaluatedEdgesScoreAndPinch := by
  intro d gap l m s power rests p e known dir travel high pulses w s1 apart q tn z score m1 w1
  have counted : countEdge (edgeSeen s1.now m (windowAt s1 d)) m.move.dir =
      { w1 with motion := some (pulsed m) } := by
    rw [dir]
    exact countEdge_known (w := edgeSeen s1.now m w) known _
  have scored : evaluated { w1 with motion := some (pulsed m) } (pulsed m) = true := by
    have more : 13 ≤ m.pulses + 1 := by omega
    have above : 6 ≤ q := Nat.le_sub_of_add_le high
    simp [evaluated, w1, w, pulsed, p, dir, known, travel, more, above]
  have stays : (windowAt s1 d).known = true → edgeLeavesBound (windowAt s1 d) m.move.dir = false := by
    intro _
    have off : (windowAt s d).record.position ≠ 0 := by omega
    rw [dir]
    exact decide_eq_false off
  have meaning : exec (.hallEdge d gap) s = .next (finishEvent
      (if 96 ≤ score then pinch d (setWindow d w1 s1)
       else if targetReached w1 m.move then endRunning d .done (setWindow d w1 s1) else setWindow d w1 s1)) := by
    refine (event_running (fun s => finishEvent (hallEdge d gap s)) power).trans ?_
    rw [hallEdge_running e gap apart p]
    dsimp only
    rw [runningEdge_evaluates (s := s1) (l := l) stays (by rw [counted]; exact travel) (by rw [counted]; exact scored), counted]
    rfl
  have window : windowAt (setWindow d w1 s1) d = w1 := windowAt_setWindow_same d w1 s1
  have motion : (windowAt (setWindow d w1 s1) d).motion = some m1 := by rw [window]
  refine ⟨fun low goes => ?goes, fun low there => ⟨endRunning d .done (setWindow d w1 s1), ?reached⟩,
    fun pinches => ⟨pinch d (setWindow d w1 s1), ?pinched⟩⟩
  case goes =>
    rw [meaning, if_neg (Nat.not_le.2 low), goes]
    exact congrArg Host.Outcome.next (finishEvent_settled ((rests.clockTo _).setWindow d w1))
  case reached =>
    have after : windowAt (endRunning d .done (setWindow d w1 s1)) d = coast s1.now w1 := by
      rw [windowAt_endRunning, window]
      rfl
    refine ⟨⟨by rw [meaning, if_neg (Nat.not_le.2 low), if_pos there], ?_⟩, ?_⟩
    · rw [after]
      exact ⟨rfl, rfl, rfl, known, rfl⟩
    · rw [after]
      exact ⟨rfl, rfl, fun t chain g mem => endRunning_told motion _ chain mem⟩
  case pinched =>
    have after : windowAt (pinch d (setWindow d w1 s1)) d = pinched s1.now w1 := by
      rw [windowAt_pinch, window]
      rfl
    refine ⟨⟨by rw [meaning, if_pos pinches], ?_⟩, ?_⟩
    · rw [after]
      exact ⟨rfl, rfl, rfl, known, rfl⟩
    · rw [after]
      refine ⟨rfl, pinch_raised d _, fun t chain g mem => pinch_told motion chain mem, fun few below => ?_, fun none => ?_⟩
      · have turns : reversalAmount w1 = some (some (min 120 (l - q))) := reversalAmount_below (w := w1) travel below
        refine ⟨afterPinch_turns (w := w1) few turns, fun v follows t chain g mem => ?_⟩
        exact pinch_drops (by rw [window]; exact few) (by rw [window]; exact turns) (by rw [window]; exact follows) chain mem
      · exact afterPinch_keeps (w := w1) (none.imp id fun opened => reversalAmount_open (w := w1) travel opened)

end Sys2Proof.Machine

/-! The records of the store (09, R158, R163 to R165): how a copy is judged, what the owners receive, what is rewritten. -/

namespace Sys2Proof.Machine

open Sys2Proof

/-! ### A copy judged -/

section
variable {α : Type} {x : Judged α}

theorem isErased_iff : isErased x = true ↔ x = .erased := by cases x <;> simp [isErased]

theorem isSound_sound {y : α} (h : x = .sound y) : isSound x = true := by rw [h]; rfl

theorem isSound_none (h : ∀ y, x ≠ .sound y) : isSound x = false := by
  cases x with
  | sound y => exact absurd rfl (h y)
  | _ => rfl

theorem isSound_erased (h : x = .erased) : isSound x = false := by rw [h]; rfl

theorem received_sound {y : α} (h : x = .sound y) (blank : Bool) (a b : α) : received blank x a b = y := by rw [h]; rfl

theorem received_damaged (h : ∀ y, x ≠ .sound y) (a b : α) : received false x a b = b := by
  cases x with
  | sound y => exact absurd rfl (h y)
  | _ => rfl

theorem received_erased (h : x = .erased) (a b : α) : received true x a b = a := by rw [h]; rfl

theorem judgeCopy_bad {content : α → Content} {inRange : α → Bool} {y : α} {c : BitVec 16}
    (h : c ≠ checkOf (content y) ∨ inRange y = false) : judgeCopy content inRange (.record y c) = .damaged := by
  refine if_neg ?_
  rintro ⟨check, sound⟩
  exact h.elim (fun other => other check) fun out => by rw [out] at sound; cases sound

end

/-! ### The blank store -/

theorem mem_allSteps (i : Fin 64) : i ∈ allSteps := List.mem_ofFn.2 ⟨i, rfl⟩
theorem mem_allTriggers (t : Trigger) : t ∈ allTriggers := by cases t <;> decide
theorem triggerAtIndex_index (t : Trigger) : triggerAtIndex (triggerIndex t) = t := by cases t <;> rfl

/-- Every copy erased. -/
def AllErased (f : Flash) : Prop :=
  (∀ i, judgedKey f i = .erased) ∧ (∀ i, judgedStep f i = .erased) ∧ (∀ u, judgedTrigger f u = .erased) ∧
    judgedSettings f = .erased ∧ (∀ d, judgedWindow f d = .erased) ∧ judgedCrash f = .erased

theorem isBlank_iff (f : Flash) : isBlank f = true ↔ AllErased f := by
  simp only [isBlank, AllErased, Bool.and_eq_true, List.all_eq_true, isErased_iff, mem_allSlots, mem_allSteps,
    mem_allTriggers, mem_allDoors, true_implies, and_assoc]

theorem unsound_erased {α ι : Type} {l : List ι} {g : ι → Judged α} (h : ∀ i, g i = .erased) : unsound l g = l := by
  refine List.filter_eq_self.2 fun i _ => ?_
  rw [isSound_erased (h i)]
  rfl

theorem mem_unsound {α ι : Type} {l : List ι} {g : ι → Judged α} {i : ι} :
    i ∈ unsound l g ↔ i ∈ l ∧ isSound (g i) = false := by
  simp [unsound]

section
variable {f : Flash}

theorem receivedTrigger_eq (f : Flash) (u : Trigger) : receivedTrigger f (triggerIndex u) =
    received (isBlank f) (judgedTrigger f u) (defaultTrigger u) { defaultTrigger u with start := none } := by
  simp only [receivedTrigger, triggerAtIndex_index]

section
variable (blank : isBlank f = true)
include blank

theorem receivedTrigger_blank (u : Trigger) : receivedTrigger f (triggerIndex u) = defaultTrigger u := by
  obtain ⟨_, _, triggers, _⟩ := (isBlank_iff f).1 blank
  rw [receivedTrigger_eq, blank, received_erased (triggers u)]

theorem receivedCrash_blank : receivedCrash f = false := by
  obtain ⟨_, _, _, _, _, crash⟩ := (isBlank_iff f).1 blank
  rw [receivedCrash, blank, received_erased crash]

/-- A blank store is rewritten whole, with the values after the first start. -/
theorem repairs_blank : repairs f =
    allSlots.map (fun i => (RecordId.key i, Content.key KeyStored.empty)) ++
      allSteps.map (fun i => (RecordId.step i, Content.step (defaultStep i))) ++
      allTriggers.map (fun t => (RecordId.trigger t, Content.trigger (defaultTrigger t))) ++
      [(RecordId.settings, Content.settings Settings.default)] ++
      allDoors.map (fun d => (RecordId.window d, Content.window WindowRec.blank)) ++ [(RecordId.crash, Content.crash false)] := by
  obtain ⟨_, _, triggers, settings, windows, crash⟩ := (isBlank_iff f).1 blank
  simp only [repairs, blank, if_true, unsound_erased triggers, unsound_erased windows, isSound_erased settings,
    isSound_erased crash, Bool.false_eq_true, if_false, receivedTrigger_blank blank, receivedCrash_blank blank]

end

/-! ### Which records are rewritten -/

theorem mem_repairs_trigger {u : Trigger} {c : Content} : (RecordId.trigger u, c) ∈ repairs f ↔
    isSound (judgedTrigger f u) = false ∧ c = .trigger (receivedTrigger f (triggerIndex u)) := by
  unfold repairs
  simp only [List.mem_append, List.mem_map, mem_unsound, mem_allTriggers, true_and, Prod.mk.injEq]
  constructor
  · rintro (((((h | h) | ⟨v, sound, e, rfl⟩) | h) | ⟨d, _, e, _⟩) | h)
    · split at h <;> simp at h
    · split at h <;> simp at h
    · cases e
      exact ⟨sound, rfl⟩
    · split at h <;> simp at h
    · cases e
    · split at h <;> simp at h
  · rintro ⟨sound, rfl⟩
    exact .inl (.inl (.inl (.inr ⟨u, sound, rfl, rfl⟩)))

theorem mem_repairs_settings {c : Content} : (RecordId.settings, c) ∈ repairs f ↔
    isSound (judgedSettings f) = false ∧ c = .settings Settings.default := by
  unfold repairs
  simp only [List.mem_append, List.mem_map, mem_unsound, Prod.mk.injEq]
  constructor
  · rintro (((((h | h) | ⟨v, _, e, _⟩) | h) | ⟨d, _, e, _⟩) | h)
    · split at h <;> simp at h
    · split at h <;> simp at h
    · cases e
    · split at h
      · cases h
      · next sound =>
        cases List.mem_singleton.1 h
        exact ⟨by simpa using sound, rfl⟩
    · cases e
    · split at h <;> simp at h
  · rintro ⟨sound, rfl⟩
    refine .inl (.inl (.inr ?_))
    rw [sound]
    exact .head _

theorem mem_repairs_window {d : Door} {c : Content} : (RecordId.window d, c) ∈ repairs f ↔
    isSound (judgedWindow f d) = false ∧ c = .window WindowRec.blank := by
  unfold repairs
  simp only [List.mem_append, List.mem_map, mem_unsound, mem_allDoors, true_and, Prod.mk.injEq]
  constructor
  · rintro (((((h | h) | ⟨v, _, e, _⟩) | h) | ⟨d, sound, e, rfl⟩) | h)
    · split at h <;> simp at h
    · split at h <;> simp at h
    · cases e
    · split at h <;> simp at h
    · cases e
      exact ⟨sound, rfl⟩
    · split at h <;> simp at h
  · rintro ⟨sound, rfl⟩
    exact .inl (.inr ⟨d, sound, rfl, rfl⟩)

theorem mem_repairs_crash {c : Content} : (RecordId.crash, c) ∈ repairs f ↔
    isSound (judgedCrash f) = false ∧ c = .crash (receivedCrash f) := by
  unfold repairs
  simp only [List.mem_append, List.mem_map, mem_unsound, Prod.mk.injEq]
  constructor
  · rintro (((((h | h) | ⟨v, _, e, _⟩) | h) | ⟨d, _, e, _⟩) | h)
    · split at h <;> simp at h
    · split at h <;> simp at h
    · cases e
    · split at h <;> simp at h
    · cases e
    · split at h
      · cases h
      · next sound =>
        cases List.mem_singleton.1 h
        exact ⟨by simpa using sound, rfl⟩
  · rintro ⟨sound, rfl⟩
    refine .inr ?_
    rw [sound]
    exact .head _

/-- Key records and steps are rewritten in a blank store alone. -/
theorem repairs_keeps_tables (blank : isBlank f = false) {p : RecordId × Content} (h : p ∈ repairs f) :
    (∀ i, p.1 ≠ .key i) ∧ ∀ i, p.1 ≠ .step i := by
  unfold repairs at h
  simp only [blank, Bool.false_eq_true, if_false, List.nil_append, List.mem_append, List.mem_map] at h
  rcases h with ((⟨_, _, rfl⟩ | h) | ⟨_, _, rfl⟩) | h
  · exact ⟨nofun, nofun⟩
  · split at h
    · cases h
    · cases List.mem_singleton.1 h
      exact ⟨nofun, nofun⟩
  · exact ⟨nofun, nofun⟩
  · split at h
    · cases h
    · cases List.mem_singleton.1 h
      exact ⟨nofun, nofun⟩

theorem receivedStep_sound {i : Fin 64} {x : Step} (h : judgedStep f i = .sound x) : receivedStep f i = .step x := by
  simp only [receivedStep, h]

theorem receivedStep_damaged (blank : isBlank f = false) {i : Fin 64} (h : ∀ y, judgedStep f i ≠ .sound y) :
    receivedStep f i = .damaged := by
  unfold receivedStep
  split
  · next y e => exact absurd e (h y)
  · rw [blank]; rfl
  · rfl

end

/-- Settles O59. -/
theorem blankAndDamagedRecords : Obligations.BlankAndDamagedRecords := by
  refine ⟨⟨?judge, ?written⟩, isBlank_iff, ?blank, ?damaged⟩
  case judge =>
    intro α content inRange
    refine ⟨rfl, rfl, fun x c => ⟨fun check sound => if_pos ⟨check, sound⟩, fun bad => judgeCopy_bad bad⟩⟩
  case written =>
    intro f
    refine ⟨fun i k sound => ?_, fun i st sound => ?_, fun u x sound => ?_, fun x sound => judgeCopy_written _ _ x sound,
      fun d w sound => ?_, fun b => judgeCopy_written _ _ b rfl, fun i => ?_, fun i => ?_, fun u => ?_, rfl, fun d => ?_, rfl⟩
    · rw [judgedKey, writeFlash, look_put_same]; exact judgeCopy_written _ _ k sound
    · rw [judgedStep, writeFlash, look_put_same]; exact judgeCopy_written _ _ st sound
    · rw [judgedTrigger, writeFlash, look_put_same]; exact judgeCopy_written _ _ x sound
    · rw [judgedWindow, writeFlash, Four.get_set, if_pos rfl]; exact judgeCopy_written _ _ w sound
    · rw [judgedKey, damageFlash, look_put_same]; rfl
    · rw [judgedStep, damageFlash, look_put_same]; rfl
    · rw [judgedTrigger, damageFlash, look_put_same]; rfl
    · rw [judgedWindow, damageFlash, Four.get_set, if_pos rfl]; rfl
  case blank =>
    intro f blank
    obtain ⟨keys, steps, triggers, settings, windows, crash⟩ := (isBlank_iff f).1 blank
    refine ⟨by rw [repairs_blank blank]; simp only [List.length_append, List.length_map, allSteps, List.length_ofFn]; rfl, ?_, by rw [damageCounts, blank, if_pos rfl], fun i => ⟨?_, fun j => ?_⟩,
      receivedTrigger_blank blank, rfl, fun d => ?_, ?_, receivedCrash_blank blank⟩
    · rw [repairs_blank blank]
      simp only [List.map_append, List.map_map, List.map_cons, List.map_nil, allSteps, List.map_ofFn]
      rfl
    · rw [receivedKey, blank, received_erased (keys i)]
    · simp only [receivedStep, steps j, blank, if_true]
    · rw [receivedWindow, blank, received_erased (windows d)]
    · rw [receivedSettings, blank, received_erased settings]
  case damaged =>
    intro f blank
    refine ⟨fun i x => ⟨fun sound => received_sound sound _ _ _, fun bad => ?_⟩,
      fun i x => ⟨receivedStep_sound, receivedStep_damaged blank⟩,
      fun u x => ⟨fun sound => ⟨?_, fun c m => ?_⟩, fun bad => ?_⟩,
      fun x => ⟨fun sound => ⟨received_sound sound _ _ _, fun c m => ?_⟩, fun bad => ⟨?_, mem_repairs_settings.2 ⟨isSound_none bad, rfl⟩⟩⟩,
      fun d x => ⟨fun sound => ⟨received_sound sound _ _ _, fun c m => ?_⟩, fun bad => ⟨?_, mem_repairs_window.2 ⟨isSound_none bad, rfl⟩⟩⟩,
      fun x => ⟨fun sound => ⟨received_sound sound _ _ _, fun c m => ?_⟩, fun bad => ?_⟩,
      fun i c m => (repairs_keeps_tables blank m).1 i rfl, fun i c m => (repairs_keeps_tables blank m).2 i rfl⟩
    · rw [receivedKey, blank, received_damaged bad]
    · rw [receivedTrigger_eq, received_sound sound]
    · rw [mem_repairs_trigger, isSound_sound sound] at m
      cases m.1
    · have value : receivedTrigger f (triggerIndex u) = { defaultTrigger u with start := none } := by
        rw [receivedTrigger_eq, blank, received_damaged bad]
      exact ⟨value, mem_repairs_trigger.2 ⟨isSound_none bad, by rw [value]⟩⟩
    · rw [mem_repairs_settings, isSound_sound sound] at m
      cases m.1
    · rw [receivedSettings, blank, received_damaged bad]
    · rw [mem_repairs_window, isSound_sound sound] at m
      cases m.1
    · rw [receivedWindow, blank, received_damaged bad]
    · rw [mem_repairs_crash, isSound_sound sound] at m
      cases m.1
    · have value : receivedCrash f = true := by rw [receivedCrash, blank, received_damaged bad]
      exact ⟨value, mem_repairs_crash.2 ⟨isSound_none bad, by rw [value]⟩⟩

end Sys2Proof.Machine

/-! The scan (09, R162 to R165; 01, R4): every owner takes what the store holds. -/

namespace Sys2Proof.Machine

open Sys2Proof

/-! ### The loads, one owner after the other -/

theorem loadWindows_eq (y : State) : loadWindows y = { y with windows := (loadWindows y).windows } := rfl

theorem loads_fields (y : State) : (loadCrash (loadSettings (loadWindows y))).vehicle = y.vehicle ∧
    (loadCrash (loadSettings (loadWindows y))).inputs = y.inputs ∧
    (loadCrash (loadSettings (loadWindows y))).mail = y.mail := by
  have own : ∀ z, (loadCrash (loadSettings z)).vehicle = z.vehicle ∧ (loadCrash (loadSettings z)).inputs = z.inputs ∧
      (loadCrash (loadSettings z)).mail = z.mail := fun _ => ⟨rfl, rfl, rfl⟩
  have windows : (loadWindows y).vehicle = y.vehicle ∧ (loadWindows y).inputs = y.inputs ∧ (loadWindows y).mail = y.mail := by
    rw [loadWindows_eq]
    exact ⟨rfl, rfl, rfl⟩
  obtain ⟨v, i, m⟩ := own (loadWindows y)
  exact ⟨v.trans windows.1, i.trans windows.2.1, m.trans windows.2.2⟩

theorem windowAt_loadWindows (y : State) (d : Door) :
    windowAt (loadWindows y) d = loadWindow (receivedWindow y.store.flash d) (windowAt y d) := by
  cases d <;> rfl

/-- The state with its repair list, the damage told. -/
def repairing (y : State) : State :=
  { y with store := { y.store with
      repair := (repairs y.store.flash).filter fun p => !y.store.queue.any fun e => e.id = p.1
      damage := damageCounts y.store.flash, scanDone := true } }

theorem formRepairs_eq (y : State) : formRepairs y =
    if anyDamage (damageCounts y.store.flash) then raise .storeDamage (repairing y) else repairing y := rfl

/-- What the scan leaves beside the tables of keys, steps and triggers. -/
theorem formRepairs_fields (y : State) :
    (formRepairs y).keys = y.keys ∧ (formRepairs y).engine = y.engine ∧ (formRepairs y).latches = y.latches ∧
    (formRepairs y).store = (repairing y).store ∧ (formRepairs y).link.settings = y.link.settings ∧
    (formRepairs y).windows = y.windows ∧ (formRepairs y).vehicle = y.vehicle ∧ (formRepairs y).inputs = y.inputs ∧
    (formRepairs y).mail = y.mail := by
  rw [formRepairs_eq]
  split
  · exact ⟨rfl, rfl, rfl, rfl, rfl, rfl, rfl, rfl, rfl⟩
  · exact ⟨rfl, rfl, rfl, rfl, rfl, rfl, rfl, rfl, rfl⟩

theorem formRepairs_raised {y : State} (h : anyDamage (damageCounts y.store.flash) = true) :
    raised .storeDamage (formRepairs y) = true := by
  rw [formRepairs_eq, if_pos h]
  exact raised_raise .storeDamage _

/-- The owners loaded from the store, before a crash event that waited. -/
def loaded (s : State) : State := formRepairs (loadCrash (loadSettings (loadWindows (loadTables s))))

/-- What each owner holds once it is loaded. -/
structure LoadedFrom (s x : State) : Prop where
  keys : ∀ i, keyAt x i = KeyRecord.load (receivedKey s.store.flash i)
  steps : ∀ i, stepAt x i = receivedStep s.store.flash i
  triggers : ∀ u, triggerAt x u = receivedTrigger s.store.flash (triggerIndex u)
  runs : x.engine.runs = s.engine.runs
  settings : x.link.settings = receivedSettings s.store.flash
  windows : ∀ d, windowAt x d = loadWindow (receivedWindow s.store.flash d) (windowAt s d)
  latches : x.latches = { s.latches with
    crashHold := receivedCrash s.store.flash || s.latches.crashPending, crashPending := false }
  store : x.store = { s.store with
    scanDone := true, damage := damageCounts s.store.flash,
    repair := (repairs s.store.flash).filter fun p => !s.store.queue.any fun e => e.id = p.1 }
  vehicle : x.vehicle = s.vehicle
  inputs : x.inputs = s.inputs
  mail : x.mail = s.mail
  damage : anyDamage (damageCounts s.store.flash) = true → raised .storeDamage x = true

theorem loadTables_keys (s : State) (i : Fin 8) : keyAt (loadTables s) i = KeyRecord.load (receivedKey s.store.flash i) := by
  simp [keyAt, loadTables, look]

theorem loadTables_steps (s : State) (i : Fin 64) : stepAt (loadTables s) i = receivedStep s.store.flash i := by
  simp [stepAt, loadTables, look]

theorem loadTables_triggers (s : State) (u : Trigger) :
    triggerAt (loadTables s) u = receivedTrigger s.store.flash (triggerIndex u) := by
  simp [triggerAt, loadTables, look]

/-- The tables loaded, the rest of the state is as it was. -/
theorem loadTables_fields (s : State) : (loadTables s).engine.runs = s.engine.runs ∧ (loadTables s).store = s.store ∧
    (loadTables s).latches = s.latches ∧ (loadTables s).windows = s.windows ∧ (loadTables s).vehicle = s.vehicle ∧
    (loadTables s).inputs = s.inputs ∧ (loadTables s).mail = s.mail := by
  simp only [loadTables, and_self]

/-- A crash event that waited is about to be taken. -/
def unpending (x : State) : State := { x with latches := { x.latches with crashPending := false } }

theorem loadedFrom (s : State) : LoadedFrom s (unpending (loaded s)) := by
  obtain ⟨runs, store, latches, windows, vehicle, inputs, mail⟩ := loadTables_fields s
  have keys := loadTables_keys s
  have steps := loadTables_steps s
  have triggers := loadTables_triggers s
  unfold loaded
  generalize loadTables s = y at *
  have fields := formRepairs_fields (loadCrash (loadSettings (loadWindows y)))
  have damage := @formRepairs_raised (loadCrash (loadSettings (loadWindows y)))
  have window : ∀ d, windowAt y d = windowAt s d := fun d => by rw [windowAt, windows]; rfl
  have flash : (loadCrash (loadSettings (loadWindows y))).store.flash = s.store.flash := by rw [← store]; rfl
  obtain ⟨sameVehicle, sameInputs, sameMail⟩ := loads_fields y
  obtain ⟨k, e, l, t, x, w, v, i, m⟩ := fields
  exact {
    keys := fun i => by
      show look (formRepairs _).keys.recs i = _
      rw [k]
      exact keys i
    steps := fun i => by
      show look (formRepairs _).engine.steps i = _
      rw [e]
      exact steps i
    triggers := fun u => by
      show look (formRepairs _).engine.triggers (triggerIndex u) = _
      rw [e]
      exact triggers u
    runs := (congrArg Engine.runs e).trans runs
    settings := x.trans (by rw [← store]; rfl)
    windows := fun d => by
      rw [← window d, ← store]
      exact (congrArg (Four.get · d) w).trans (windowAt_loadWindows y d)
    latches := by
      show { (formRepairs (loadCrash (loadSettings (loadWindows y)))).latches with crashPending := false } = _
      rw [l, ← store, ← latches]
      rfl
    store := by
      rw [← store]
      exact t
    vehicle := by
      show (formRepairs _).vehicle = _
      rw [v, sameVehicle, vehicle]
    inputs := by
      show (formRepairs _).inputs = _
      rw [i, sameInputs, inputs]
    mail := by
      show (formRepairs _).mail = _
      rw [m, sameMail, mail]
    damage := fun h => damage (by rw [flash]; exact h) }

/-! ### The scan's end -/

section
variable {s : State}

theorem scanComplete_undone (undone : s.store.scanDone = false) : scanComplete s = finishEvent (deliverCrash (loaded s)) := by
  unfold scanComplete
  rw [undone, if_neg nofun, loaded]

theorem loaded_pending (s : State) : (loaded s).latches.crashPending = s.latches.crashPending := by
  obtain ⟨_, _, latches, _⟩ := loadTables_fields s
  have kept := (formRepairs_fields (loadCrash (loadSettings (loadWindows (loadTables s))))).2.2.1
  have pending : ∀ y, (loadCrash (loadSettings (loadWindows y))).latches.crashPending = y.latches.crashPending := fun _ => rfl
  rw [loaded, kept, pending, latches]

theorem unpending_of_none {x : State} (h : x.latches.crashPending = false) : unpending x = x := by
  unfold unpending
  rw [← h]

theorem deliverCrash_none (h : s.latches.crashPending = false) : deliverCrash (loaded s) = unpending (loaded s) := by
  have none : (loaded s).latches.crashPending = false := (loaded_pending s).trans h
  rw [unpending_of_none none]
  exact if_neg (by rw [none]; nofun)

theorem deliverCrash_waiting (h : s.latches.crashPending = true) : deliverCrash (loaded s) =
    (fire (systemFiring .crash (driverAperture (unpending (loaded s)))) (unpending (loaded s))).1 :=
  if_pos ((loaded_pending s).trans h)

theorem deliverCrash_kept (s : State) : Kept (unpending (loaded s)) (deliverCrash (loaded s)) := by
  cases h : s.latches.crashPending with
  | false =>
    rw [deliverCrash_none h]
    exact .refl _
  | true =>
    rw [deliverCrash_waiting h]
    exact fire_kept _ _

theorem loadWindow_known (r : WindowRec) (w : Window) :
    (loadWindow r w).record = r ∧ ((loadWindow r w).known = true ↔ r.valid = true ∧ r.position ≤ bound r.travel) := by
  simp [loadWindow]

end

/-- Settles O58. -/
theorem theScanLoadsEveryOwner : Obligations.TheScanLoadsEveryOwner := by
  have scans : ∀ {s : State}, s.power = .running → s.store.scanDone = false →
      exec .scanComplete s = .next (finishEvent (deliverCrash (loaded s))) := fun power undone => by
    rw [← scanComplete_undone undone]
    exact event_running scanComplete power
  refine ⟨fun s power undone => ?loads, fun s power undone => ?leaves⟩
  case loads =>
    have from_ := loadedFrom s
    refine ⟨unpending (loaded s), fun none => ?_, fun waits => ?_, from_.keys, from_.steps,
      fun u => ⟨from_.triggers u, by rw [runAt, from_.runs]; rfl⟩, from_.settings, fun d => ?_, from_.latches,
      from_.store, from_.vehicle, from_.inputs, from_.mail⟩
    · rw [scans power undone, deliverCrash_none none]
    · rw [scans power undone, deliverCrash_waiting waits, driverAperture, from_.settings]
      rfl
    · rw [from_.windows]
      exact loadWindow_known _ _
  case leaves =>
    have from_ := loadedFrom s
    have kept := (deliverCrash_kept s).trans (finishEvent_kept _)
    refine ⟨_, scans power undone, ?_, ?_, fun i => ?_, ?_, ?_, ?_, ?_, fun h => kept.raised (from_.damage h),
      fun rests none => ?_⟩
    · rw [kept.scanDone, from_.store]
    · rw [kept.flash, from_.store]
    · rw [keyAt, kept.keys]
      have key := from_.keys i
      rw [keyAt] at key
      rw [key]
      exact ⟨rfl, rfl⟩
    · rw [kept.settings, from_.settings]
    · rw [kept.crashHold, from_.latches]
    · rw [kept.crashPending, from_.latches]
    · rw [kept.damage, from_.store]
    · have settled : Settled (unpending (loaded s)) := rests.of_runs (from_.mail.trans rests.1) from_.runs
      rw [deliverCrash_none none, finishEvent_settled settled]
      refine ⟨fun d => ?_, from_.steps, from_.triggers, by rw [from_.store], by rw [from_.store]⟩
      rw [from_.windows]
      exact loadWindow_known _ _

end Sys2Proof.Machine

/-! The chain tables written by the host (06, R122, R124, R125). -/

namespace Sys2Proof.Machine

open Sys2Proof

/-! ### The chain tables of a request taken -/

section
variable (n : Nat) (s : State)

@[simp] theorem stepAt_taken (i : Fin 64) : stepAt (taken n s) i = stepAt s i := by
  rw [stepAt, taken_engine_steps]
  rfl

@[simp] theorem triggerAt_taken (u : Trigger) : triggerAt (taken n s) u = triggerAt s u := by
  rw [triggerAt, taken_engine_triggers]
  rfl

@[simp] theorem continueAt_taken (u : Trigger) : continueAt (taken n s) u = continueAt s u := by
  rw [continueAt, taken_engine_continuePoints]
  rfl

@[simp] theorem refireAt_taken (u : Trigger) : refireAt (taken n s) u = refireAt s u := by
  rw [refireAt, taken_engine_refires]
  rfl

@[simp] theorem runAt_taken (u : Trigger) : runAt (taken n s) u = runAt s u := by
  rw [runAt, taken_engine_runs]
  rfl

end

/-! ### The tables' writes -/

theorem stepAt_setStep (i j : Fin 64) (c : StepCell) (s : State) :
    stepAt (setStep i c s) j = if i = j then c else stepAt s j := look_put _ _ _ _

theorem triggerAt_setTrigger (t u : Trigger) (x : TriggerStatic) (s : State) :
    triggerAt (setTrigger t x s) u = if t = u then x else triggerAt s u := look_put_trigger _ t u x

/-- What a step write leaves: the step, its record in the queue, the rest of the chain tables. -/
theorem takeStepWrite_writes (i : Fin 64) (st : Step) (s : State) :
    let t := takeStepWrite i st s
    stepAt t i = .step st ∧ (∀ j, j ≠ i → stepAt t j = stepAt s j) ∧ t.engine.runs = s.engine.runs ∧
      t.engine.continuePoints = s.engine.continuePoints ∧ t.link = s.link ∧ Queued t (.step i) (.step st) .replyOk := by
  refine ⟨?_, fun j other => ?_, rfl, rfl, rfl, offer_queued _ _ _ _ (List.mem_singleton.2 rfl)⟩
  · exact (stepAt_setStep i i _ s).trans (if_pos rfl)
  · exact (stepAt_setStep i j _ s).trans (if_neg (Ne.symm other))

theorem takeTriggerWrite_writes (u : Trigger) (x : TriggerStatic) (s : State) :
    let t := takeTriggerWrite u x s
    triggerAt t u = x ∧ continueAt t u = none ∧
      (∀ v, v ≠ u → triggerAt t v = triggerAt s v ∧ continueAt t v = continueAt s v) ∧
      t.engine.runs = s.engine.runs ∧ t.link = s.link ∧ Queued t (.trigger u) (.trigger x) .replyOk := by
  refine ⟨?_, ?_, fun v other => ⟨?_, ?_⟩, rfl, rfl, offer_queued _ _ _ _ (List.mem_singleton.2 rfl)⟩
  · exact (triggerAt_setTrigger u u x s).trans (if_pos rfl)
  · exact (continueAt_setContinue u u none _).trans (if_pos rfl)
  · exact (triggerAt_setTrigger u v x s).trans (if_neg (Ne.symm other))
  · exact (continueAt_setContinue u v none _).trans (if_neg (Ne.symm other))

/-- The record kept of a trigger: no trigger cancels CRASH, and CRASH has the priority 3. -/
theorem keptTrigger_fields (u : Trigger) (start : Option (Fin 64)) (p : Nat) (g : Staging) (h : Bool) (x : BitVec 14) :
    let k := keptTrigger u start p g h x
    k.start = start ∧ k.staging = g ∧ k.holdToRun = h ∧ k.cancelSet.getLsbD 0 = false ∧
      (∀ b, 0 < b → k.cancelSet.getLsbD b = x.getLsbD b) ∧ (u = .crash → k.priority = 3) ∧
      (u ≠ .crash → k.priority = max 1 (min 2 p)) := by
  refine ⟨rfl, rfl, rfl, by simp [keptTrigger], fun b above => ?_, fun crash => if_pos crash, fun other => ?_⟩
  · by_cases wide : b < 14
    · show (x &&& ~~~1#14).getLsbD b = _
      rw [BitVec.getLsbD_and, BitVec.getLsbD_not, BitVec.getLsbD_one]
      simp [wide, Nat.ne_of_gt above]
    · simp [keptTrigger, BitVec.getLsbD_of_ge _ _ (Nat.not_lt.1 wide)]
  · rw [← clampTo_eq_max_min (by omega)]
    exact if_neg other

/-! ### The default chains -/

theorem loadDefaults_steps (s : State) (i : Fin 64) : stepAt (loadDefaults s) i = .step (defaultStep i) := by
  simp [stepAt, loadDefaults, look]

theorem loadDefaults_triggers (s : State) (u : Trigger) : triggerAt (loadDefaults s) u = defaultTrigger u := by
  have at_ := triggerAtIndex_index u
  rw [triggerAtIndex] at at_
  simp only [triggerAt, loadDefaults, look, Vector.getElem_ofFn]
  rw [at_]

theorem loadDefaults_continues (s : State) (u : Trigger) : continueAt (loadDefaults s) u = none := by
  simp [continueAt, loadDefaults, look]

theorem loadDefaults_runs (s : State) : (loadDefaults s).engine.runs = s.engine.runs := by simp only [loadDefaults]
theorem loadDefaults_refires (s : State) : (loadDefaults s).engine.refires = s.engine.refires := by simp only [loadDefaults]
theorem loadDefaults_link (s : State) : (loadDefaults s).link = s.link := by simp only [loadDefaults]

/-- The first default record offered leaves the tables and the runs. -/
theorem persistDefault_first_fields (y : State) : let t := persistDefault 0 y
    t.engine = { y.engine with defaulting := some 0 } ∧ t.link = y.link ∧
      Queued t (.step 0) (.step (defaultStep 0)) .chainsDefault :=
  ⟨rfl, rfl, offer_queued _ _ _ _ (List.mem_singleton.2 rfl)⟩

/-- Settles O49. -/
theorem chainTablesAreWritten : Obligations.ChainTablesAreWritten := by
  refine ⟨⟨?step, ?trigger⟩, ?default⟩
  case step =>
    intro bi ba bx bg br bf bn i n a x g r f s serves ei ea ex eg er ef en st
    have meaning : exec (.stepWrite bi ba bx bg br bf bn) s = .next (takeStepWrite i st (taken 7 s)) := by
      refine (hostRequest_ready serves).trans ?_
      rw [ei, needs_some, ea, needs_some, ex, needs_some, eg, needs_some, er, needs_some, ef, needs_some, en, needs_some]
    obtain ⟨own, others, runs, points, link, queued⟩ := takeStepWrite_writes i st (taken 7 s)
    refine ⟨_, meaning, own, fun j other => (others j other).trans (stepAt_taken 7 s j), ?_, ?_, ?_, queued⟩
    · rw [runs, taken_engine_runs]
    · rw [points, taken_engine_continuePoints]
    · rw [link, taken_link_state]
  case trigger =>
    intro bi bs bp bg bh c u start g h x s serves ei es eg eh ec
    have meaning : exec (.triggerWrite bi bs bp bg bh c) s =
        .next (takeTriggerWrite u (keptTrigger u start bp.toNat g h x) (taken 7 s)) := by
      refine (hostRequest_ready serves).trans ?_
      rw [ei, needs_some, es, needs_some, eg, needs_some, eh, needs_some, ec, needs_some]
    obtain ⟨own, point, others, runs, link, queued⟩ := takeTriggerWrite_writes u (keptTrigger u start bp.toNat g h x) (taken 7 s)
    obtain ⟨starts, staging, holds, crash, cancels, three, priority⟩ := keptTrigger_fields u start bp.toNat g h x
    refine ⟨_, meaning, ?_⟩
    rw [own]
    refine ⟨starts, staging, holds, crash, cancels, three, priority, point, fun v other => ?_, ?_, ?_, queued⟩
    · obtain ⟨t, c⟩ := others v other
      exact ⟨t.trans (triggerAt_taken 7 s v), c.trans (continueAt_taken 7 s v)⟩
    · rw [runs, taken_engine_runs]
    · rw [link, taken_link_state]
  case default =>
    intro s serves
    have meaning : exec .chainsDefault s = .next (persistDefault 0 (loadDefaults (taken 0 s))) :=
      hostRequest_ready (owner := fun x => persistDefault 0 (loadDefaults x)) serves
    obtain ⟨engine, link, queued⟩ := persistDefault_first_fields (loadDefaults (taken 0 s))
    refine ⟨_, meaning, fun i => ?_, fun u => ⟨?_, ?_, ?_, ?_⟩, ?_, by rw [engine], queued⟩
    · rw [stepAt, engine]
      exact loadDefaults_steps (taken 0 s) i
    · rw [triggerAt, engine]
      exact loadDefaults_triggers (taken 0 s) u
    · rw [continueAt, engine]
      exact loadDefaults_continues (taken 0 s) u
    · rw [runAt, engine]
      dsimp only
      rw [loadDefaults_runs]
      exact runAt_taken 0 s u
    · rw [refireAt, engine]
      dsimp only
      rw [loadDefaults_refires]
      exact refireAt_taken 0 s u
    · rw [link, loadDefaults_link, taken_link_state]

end Sys2Proof.Machine

/-! Runs cancelled in turn (07, R131, R156): what a list of triggers swept leaves of the engine's records. -/

namespace Sys2Proof.Machine

open Sys2Proof

/-- The latest outcome record of a cancelled run. -/
def cancelledOutcome (u : Trigger) (r : Run) : LatestOutcome :=
  { trigger := u, outcome := .cancelled, slot := r.slot, lastStep := if r.steps = 0 then none else some r.stepIndex }

/-- An operation that cancels one trigger's run. -/
structure Sweeps (f : State → Trigger → State) : Prop where
  run : ∀ s u v, runAt (f s u) v = if u = v then none else runAt s v
  latestIdle : ∀ s u, runAt s u = none → (f s u).engine.latest = s.engine.latest
  latestRun : ∀ s u r, runAt s u = some r → (f s u).engine.latest = some (cancelledOutcome u r)
  raises : ∀ s u r, runAt s u = some r → raised .chainDone (f s u) = true
  kept : ∀ s u, Kept s (f s u)

/-- A trigger swept of its run, its continue point and its refire record (07, R156). -/
def sweepTrigger (s : State) (u : Trigger) : State := setRefire u none (cancelTrigger s u)

theorem cancelTrigger_sweeps : Sweeps cancelTrigger where
  run s u v := runAt_cancelTrigger u v s
  latestIdle _ _ h := latest_cancelTrigger_none h
  latestRun _ _ _ h := latest_cancelTrigger_some h
  raises _ _ _ h := retire_raises .cancelled h
  kept s u := (cancelTrigger_moves s u).kept

theorem sweepTrigger_sweeps : Sweeps sweepTrigger where
  run s u v := runAt_cancelTrigger u v s
  latestIdle _ _ h := latest_cancelTrigger_none h
  latestRun _ _ _ h := latest_cancelTrigger_some h
  raises _ _ _ h := retire_raises .cancelled h
  kept s u := ((cancelTrigger_moves s u).trans (setRefire_moves u none _)).kept

namespace Sweeps

variable {f : State → Trigger → State} (h : Sweeps f)
include h

theorem runs (l : List Trigger) (u : Trigger) (s : State) :
    runAt (l.foldl f s) u = if u ∈ l then none else runAt s u := by
  induction l generalizing s with
  | nil => simp
  | cons t l ih =>
    rw [List.foldl_cons, ih, h.run]
    by_cases e : t = u <;> by_cases m : u ∈ l <;> simp [e, m, Ne.symm]

theorem keeps (l : List Trigger) (s : State) : Kept s (l.foldl f s) := by
  induction l generalizing s with
  | nil => exact .refl s
  | cons t l ih => exact (h.kept s t).trans (ih _)

theorem latest_none {l : List Trigger} {s : State} (k : ∀ t ∈ l, runAt s t = none) :
    (l.foldl f s).engine.latest = s.engine.latest := by
  induction l generalizing s with
  | nil => rfl
  | cons t l ih =>
    rw [List.foldl_cons, ih, h.latestIdle s t (k t (.head _))]
    intro u m
    rw [h.run, k u (.tail _ m), ite_self]

/-- Of several runs cancelled in turn, the last one's outcome stays. -/
theorem latest_last {pre post : List Trigger} {t : Trigger} {s : State} {r : Run} (k : runAt s t = some r)
    (new : t ∉ pre) (rest : ∀ u ∈ post, runAt s u = none) :
    ((pre ++ t :: post).foldl f s).engine.latest = some (cancelledOutcome t r) := by
  have stands : runAt (pre.foldl f s) t = some r := by rw [h.runs, if_neg new, k]
  rw [List.foldl_append, List.foldl_cons, h.latest_none, h.latestRun _ _ _ stands]
  intro u m
  rw [h.run, h.runs, rest u m, ite_self, ite_self]

theorem raised {l : List Trigger} {u : Trigger} (m : u ∈ l) {s : State} {r : Run} (k : runAt s u = some r) :
    raised .chainDone (l.foldl f s) = true := by
  induction l generalizing s with
  | nil => cases m
  | cons t l ih =>
    rw [List.foldl_cons]
    by_cases same : t = u
    · subst same
      exact (h.keeps l _).raised (h.raises s t r k)
    · refine ih ((List.mem_cons.1 m).resolve_left (Ne.symm same)) ?_
      rw [h.run, if_neg same, k]

/-- In a list in the order of the triggers, the last run is the one of the highest index. -/
theorem latest_highest {l : List Trigger} (order : l.Pairwise fun a b => (triggerIndex a).val < (triggerIndex b).val)
    {u : Trigger} (m : u ∈ l) {s : State} {r : Run} (k : runAt s u = some r)
    (top : ∀ v z, v ∈ l → runAt s v = some z → (triggerIndex v).val ≤ (triggerIndex u).val) :
    (l.foldl f s).engine.latest = some (cancelledOutcome u r) := by
  obtain ⟨pre, post, rfl⟩ := List.append_of_mem m
  rw [List.pairwise_append] at order
  obtain ⟨_, after, before⟩ := order
  refine h.latest_last k (fun mem => ?_) fun v mem => ?_
  · exact absurd (before u mem u (.head _)) (Nat.lt_irrefl _)
  · cases run : runAt s v with
    | none => rfl
    | some z =>
      have below := top v z (List.mem_append_right _ (.tail _ mem)) run
      have above := List.rel_of_pairwise_cons after mem
      omega

end Sweeps

theorem allTriggers_ordered : allTriggers.Pairwise fun a b => (triggerIndex a).val < (triggerIndex b).val := by decide

theorem refireAt_cancelAll (l : List Trigger) (u : Trigger) (s : State) :
    refireAt (l.foldl cancelTrigger s) u = if u ∈ l ∧ (runAt s u).isSome then none else refireAt s u := by
  induction l generalizing s with
  | nil => simp
  | cons t l ih =>
    rw [List.foldl_cons, ih, runAt_cancelTrigger, refireAt_cancelTrigger]
    by_cases e : t = u
    · subst e
      simp
    · simp [e, Ne.symm e]

theorem cancelAll_nextSerial (l : List Trigger) (s : State) :
    (l.foldl cancelTrigger s).engine.nextSerial = s.engine.nextSerial := by
  induction l generalizing s with
  | nil => rfl
  | cons t l ih => rw [List.foldl_cons, ih, cancelTrigger_nextSerial]

/-! ### The crash sweep (07, R156) -/

/-- The triggers swept by a crash firing. -/
def sweptTriggers : List Trigger := allTriggers.filter fun u => u ≠ .crash

theorem mem_sweptTriggers {u : Trigger} : u ∈ sweptTriggers ↔ u ≠ .crash := by
  simp [sweptTriggers, mem_allTriggers]

theorem sweptTriggers_ordered : sweptTriggers.Pairwise fun a b => (triggerIndex a).val < (triggerIndex b).val :=
  allTriggers_ordered.sublist List.filter_sublist

theorem crashSweep_eq (s : State) :
    crashSweep s = stopRelock (setContinue .crash none (sweptTriggers.foldl sweepTrigger s)) := rfl

section
variable (y : State)

theorem runAt_sweptEnd (u : Trigger) : runAt (stopRelock (setContinue .crash none y)) u = runAt y u := rfl

theorem refireAt_sweptEnd (u : Trigger) : refireAt (stopRelock (setContinue .crash none y)) u = refireAt y u := rfl

theorem continueAt_sweptEnd (u : Trigger) : continueAt (stopRelock (setContinue .crash none y)) u =
    if .crash = u then none else continueAt y u := continueAt_setContinue .crash u none y

theorem latest_sweptEnd : (stopRelock (setContinue .crash none y)).engine.latest = y.engine.latest := rfl

theorem nextSerial_sweptEnd : (stopRelock (setContinue .crash none y)).engine.nextSerial = y.engine.nextSerial := rfl

theorem raised_sweptEnd (f : AttentionFlag) : raised f (stopRelock (setContinue .crash none y)) = raised f y := rfl

end

theorem runAt_crashSweep (u : Trigger) (s : State) : runAt (crashSweep s) u = if u = .crash then runAt s u else none := by
  rw [crashSweep_eq, runAt_sweptEnd, sweepTrigger_sweeps.runs]
  by_cases crash : u = .crash
  · rw [if_pos crash, if_neg (fun m => mem_sweptTriggers.1 m crash)]
  · rw [if_neg crash, if_pos (mem_sweptTriggers.2 crash)]

theorem refireAt_sweepAll (l : List Trigger) (u : Trigger) (s : State) :
    refireAt (l.foldl sweepTrigger s) u = if u ∈ l then none else refireAt s u := by
  induction l generalizing s with
  | nil => simp
  | cons t l ih =>
    rw [List.foldl_cons, ih, sweepTrigger, refireAt_setRefire, refireAt_cancelTrigger]
    by_cases m : u ∈ l
    · simp [m]
    · by_cases e : t = u
      · simp [e]
      · simp [e, m, Ne.symm e]

theorem refireAt_crashSweep (u : Trigger) (s : State) :
    refireAt (crashSweep s) u = if u = .crash then refireAt s u else none := by
  rw [crashSweep_eq, refireAt_sweptEnd, refireAt_sweepAll]
  by_cases crash : u = .crash
  · rw [if_pos crash, if_neg (fun m => mem_sweptTriggers.1 m crash)]
  · rw [if_neg crash, if_pos (mem_sweptTriggers.2 crash)]

theorem continueAt_sweepAll (l : List Trigger) (u : Trigger) (s : State) :
    continueAt (l.foldl sweepTrigger s) u = if u ∈ l then none else continueAt s u := by
  induction l generalizing s with
  | nil => simp
  | cons t l ih =>
    have own : continueAt (sweepTrigger s t) u = if t = u then none else continueAt s u := continueAt_cancelTrigger t u s
    rw [List.foldl_cons, ih, own]
    by_cases m : u ∈ l
    · simp [m]
    · by_cases e : t = u
      · simp [e]
      · simp [e, m, Ne.symm e]

theorem continueAt_crashSweep (u : Trigger) (s : State) : continueAt (crashSweep s) u = none := by
  rw [crashSweep_eq, continueAt_sweptEnd]
  split
  · rfl
  · next other => rw [continueAt_sweepAll, if_pos (mem_sweptTriggers.2 (Ne.symm other))]

theorem crashSweep_relock (s : State) : (crashSweep s).engine.relock = none := rfl

theorem crashSweep_nextSerial (s : State) : (crashSweep s).engine.nextSerial = s.engine.nextSerial := by
  have swept : ∀ l : List Trigger, ∀ s, (l.foldl sweepTrigger s).engine.nextSerial = s.engine.nextSerial := by
    intro l
    induction l with
    | nil => exact fun _ => rfl
    | cons t l ih => exact fun s => (ih _).trans (cancelTrigger_nextSerial t s)
  rw [crashSweep_eq, nextSerial_sweptEnd, swept]

theorem crashSweep_latest {u : Trigger} (other : u ≠ .crash) {s : State} {r : Run} (k : runAt s u = some r)
    (top : ∀ v z, v ≠ .crash → runAt s v = some z → (triggerIndex v).val ≤ (triggerIndex u).val) :
    (crashSweep s).engine.latest = some (cancelledOutcome u r) := by
  rw [crashSweep_eq, latest_sweptEnd]
  exact sweepTrigger_sweeps.latest_highest sweptTriggers_ordered (mem_sweptTriggers.2 other) k
    fun v z m run => top v z (mem_sweptTriggers.1 m) run

theorem crashSweep_latest_none {s : State} (k : ∀ u, u ≠ .crash → runAt s u = none) :
    (crashSweep s).engine.latest = s.engine.latest := by
  rw [crashSweep_eq, latest_sweptEnd]
  exact sweepTrigger_sweeps.latest_none fun u m => k u (mem_sweptTriggers.1 m)

theorem crashSweep_raises {u : Trigger} (other : u ≠ .crash) {s : State} {r : Run} (k : runAt s u = some r) :
    raised .chainDone (crashSweep s) = true := by
  rw [crashSweep_eq, raised_sweptEnd]
  exact sweepTrigger_sweeps.raised (mem_sweptTriggers.2 other) k

end Sys2Proof.Machine

/-! Firings decided (07, R130 to R132, R146, R155 to R157). -/

namespace Sys2Proof.Machine

open Sys2Proof

/-! ### A firing that is not taken, or is recorded -/

section
variable {f : Firing} {s : State}

theorem fire_other (h : f.trigger ≠ .crash) : fire f s = decideFiring f s := by
  unfold fire
  rw [if_neg h]

theorem fire_crash (h : f.trigger = .crash) : fire f s = decideFiring f (crashSweep s) := by
  unfold fire
  rw [if_pos h]

theorem decideFiring_disabled (h : firingStart s f = none) : decideFiring f s = (s, .triggerDisabled) := by
  unfold decideFiring
  simp only [h]

section
variable {i : Fin 64} (h : firingStart s f = some i)
include h

theorem decideFiring_taken (k : runAt s f.trigger = none) : decideFiring f s = (takeFiring f i s, .fired) := by
  unfold decideFiring
  simp only [h, k]

variable {r : Run} (k : runAt s f.trigger = some r)
include k

theorem decideFiring_parked (p : r.state = .faulted) : decideFiring f s = (raise .triggerRefused s, .triggerParked) := by
  unfold decideFiring
  simp only [h, k, p]

theorem decideFiring_held (p : r.state ≠ .faulted) (hold : (triggerAt s f.trigger).holdToRun = true)
    (mark : f.holdMark = true) :
    decideFiring f s = (setRun f.trigger (some { r with hold := some (s.now + ms 600) }) s, .fired) := by
  unfold decideFiring
  cases e : r.state with
  | faulted => exact absurd e p
  | _ => simp only [h, k, e, hold, mark, Bool.and_self, if_true]; rfl

variable (plain : (triggerAt s f.trigger).holdToRun = false ∨ f.holdMark = false)
include plain

omit h k in
theorem not_held : ((triggerAt s f.trigger).holdToRun && f.holdMark) = false := by
  obtain hold | mark := plain
  · rw [hold]; rfl
  · rw [mark, Bool.and_false]

theorem decideFiring_ready (p : r.state = .ready) : decideFiring f s = (s, .fired) := by
  unfold decideFiring
  simp only [h, k, p, not_held plain, Bool.false_eq_true, if_false]

theorem decideFiring_recorded (p : r.state = .active ∨ r.state = .suspended) :
    decideFiring f s = (setRefire f.trigger (some f.carried) s, .fired) := by
  unfold decideFiring
  obtain p | p := p <;> simp only [h, k, p, not_held plain, Bool.false_eq_true, if_false]

end

end

/-! ### The engine's holder -/

theorem find?_of_imp {α : Type} {p q : α → Bool} {l : List α} {u : α} (h : l.find? p = some u)
    (sub : ∀ v, q v = true → p v = true) (own : q u = true) : l.find? q = some u := by
  induction l with
  | nil => cases h
  | cons v l ih =>
    rw [List.find?_cons] at h ⊢
    cases first : p v with
    | true =>
      rw [first] at h
      cases h
      rw [own]
    | false =>
      rw [first] at h
      cases second : q v with
      | true => rw [sub v second] at first; cases first
      | false => exact ih h

/-- A state whose ACTIVE runs all were ACTIVE before has the same holder, if that one still stands. -/
theorem activeTrigger_of_sub {s y : State} {u : Trigger} (h : activeTrigger s = some u)
    (sub : ∀ v r, runAt y v = some r → r.state = .active → runAt s v = some r) {r : Run} (own : runAt y u = some r)
    (active : r.state = .active) : activeTrigger y = some u := by
  refine find?_of_imp h (fun v e => ?_) ?_
  · obtain ⟨r, e, a⟩ := (Option.any_eq_true _ _).1 e
    rw [sub v r e (by simpa using a)]
    exact a
  · rw [own]
    simpa using active

/-- A run that loses the engine: its pause stops. -/
def suspendedRun (now : Nat) (x : Run) : Run :=
  { x with
    state := .suspended,
    pause := x.pause.map fun p => match p.since with
      | some e => { left := p.left - (now - e), since := none }
      | none => p }

theorem suspend_eq {u : Trigger} {x : Run} {s : State} (e : runAt s u = some x) :
    suspend u s = setRun u (some (suspendedRun s.now x)) s := by
  unfold suspend
  simp only [e]
  rfl

theorem activate_unstepped {t : Trigger} {r : Run} {s : State} (e : runAt s t = some r) (k : r.step = none) :
    activate t s = setRun t (some { r with state := .active }) s := by
  unfold activate
  simp only [e, k]

section
variable {t u : Trigger} {r x : Run} {s : State} (a : activeTrigger s = some u) (e : runAt s t = some r)
  (k : runAt s u = some x)
include a e k

theorem preempt_below (h : r.priority ≤ x.priority) : preempt t s = s := by
  unfold preempt
  simp only [a, e, k, if_neg (Nat.not_lt.2 h)]

theorem preempt_above (h : x.priority < r.priority) :
    preempt t s = activate t (setRun u (some (suspendedRun s.now x)) s) := by
  unfold preempt
  simp only [a, e, k, if_pos h, suspend_eq k]

end

/-! ### A firing taken (07, R131) -/

/-- The state with the fresh run READY and the cancel set retired, before the engine's holder is tested. -/
def readied (f : Firing) (i : Fin 64) (s : State) : State :=
  stopRelock ((cancelled f.trigger s).foldl cancelTrigger (fresh f i s))

theorem takeFiring_readied (f : Firing) (i : Fin 64) (s : State) :
    takeFiring f i s = preempt f.trigger (readied f i s) := takeFiring_eq f i s

theorem mem_cancelled {t u : Trigger} {s : State} : u ∈ cancelled t s ↔
    u ≠ t ∧ (triggerAt s t).cancelSet.getLsbD (triggerIndex u).val = true := by
  simp [cancelled, mem_allTriggers]

section
variable (f : Firing) (i : Fin 64) (s : State)

theorem runAt_fresh (u : Trigger) : runAt (fresh f i s) u = if f.trigger = u then some (newRun s f i) else runAt s u :=
  runAt_setRun f.trigger u (some (newRun s f i)) s

theorem continueAt_fresh (u : Trigger) : continueAt (fresh f i s) u = if f.trigger = u then none else continueAt s u :=
  continueAt_setContinue f.trigger u none (setRun f.trigger (some (newRun s f i)) s)

theorem readied_now : (readied f i s).now = s.now :=
  (cancelTrigger_sweeps.keeps (cancelled f.trigger s) (fresh f i s)).now

theorem runAt_readied_own : runAt (readied f i s) f.trigger = some (newRun s f i) := runAt_fresh_cancelled f i s

theorem runAt_readied_cancelled {u : Trigger} (m : u ∈ cancelled f.trigger s) : runAt (readied f i s) u = none :=
  (runAt_cancelAll (cancelled f.trigger s) u (fresh f i s)).trans (if_pos m)

variable {f i s}

theorem runAt_readied_other {u : Trigger} (other : u ≠ f.trigger) (m : u ∉ cancelled f.trigger s) :
    runAt (readied f i s) u = runAt s u :=
  (runAt_cancelAll (cancelled f.trigger s) u (fresh f i s)).trans ((if_neg m).trans
    ((runAt_fresh f i s u).trans (if_neg (Ne.symm other))))

theorem continueAt_readied_own : continueAt (readied f i s) f.trigger = none := by
  refine (continueAt_cancelAll (cancelled f.trigger s) _ (fresh f i s)).trans ?_
  rw [continueAt_fresh, if_pos rfl, ite_self]

theorem continueAt_readied_cancelled {u : Trigger} (m : u ∈ cancelled f.trigger s) : continueAt (readied f i s) u = none :=
  (continueAt_cancelAll (cancelled f.trigger s) u (fresh f i s)).trans (if_pos m)

theorem continueAt_readied_other {u : Trigger} (other : u ≠ f.trigger) (m : u ∉ cancelled f.trigger s) :
    continueAt (readied f i s) u = continueAt s u :=
  (continueAt_cancelAll (cancelled f.trigger s) u (fresh f i s)).trans ((if_neg m).trans
    ((continueAt_fresh f i s u).trans (if_neg (Ne.symm other))))

theorem refireAt_readied_kept {u : Trigger} (m : u ∉ cancelled f.trigger s) :
    refireAt (readied f i s) u = refireAt s u :=
  (refireAt_cancelAll (cancelled f.trigger s) u (fresh f i s)).trans (if_neg fun both => m both.1)

/-- A cancelled trigger is not the one fired. -/
theorem runAt_fresh_other {u : Trigger} (m : u ∈ cancelled f.trigger s) : runAt (fresh f i s) u = runAt s u :=
  (runAt_fresh f i s u).trans (if_neg (Ne.symm (mem_cancelled.1 m).1))

theorem refireAt_readied_cancelled {u : Trigger} (m : u ∈ cancelled f.trigger s) {y : Run} (k : runAt s u = some y) :
    refireAt (readied f i s) u = none :=
  (refireAt_cancelAll (cancelled f.trigger s) u (fresh f i s)).trans
    (if_pos ⟨m, by rw [runAt_fresh_other m, k]; rfl⟩)

theorem readied_nextSerial : (readied f i s).engine.nextSerial = s.engine.nextSerial + 1 :=
  cancelAll_nextSerial (cancelled f.trigger s) (fresh f i s)

theorem readied_relock : (readied f i s).engine.relock = none := rfl

theorem readied_raises {u : Trigger} (m : u ∈ cancelled f.trigger s) {y : Run} (k : runAt s u = some y) :
    raised .chainDone (readied f i s) = true :=
  cancelTrigger_sweeps.raised m (s := fresh f i s) (by rw [runAt_fresh_other m, k])

theorem readied_latest {u : Trigger} (m : u ∈ cancelled f.trigger s) {y : Run} (k : runAt s u = some y)
    (top : ∀ v z, v ∈ cancelled f.trigger s → runAt s v = some z → (triggerIndex v).val ≤ (triggerIndex u).val) :
    (readied f i s).engine.latest = some (cancelledOutcome u y) :=
  cancelTrigger_sweeps.latest_highest (allTriggers_ordered.sublist List.filter_sublist) m (s := fresh f i s)
    (by rw [runAt_fresh_other m, k]) fun v z mem run => top v z mem (by rw [← runAt_fresh_other mem, run])

/-- An ACTIVE run beside the fresh one stood before, and is not cancelled. -/
theorem readied_active {v : Trigger} {r : Run} (e : runAt (readied f i s) v = some r) (a : r.state = .active) :
    v ≠ f.trigger ∧ v ∉ cancelled f.trigger s ∧ runAt s v = some r := by
  by_cases own : v = f.trigger
  · subst own
    rw [runAt_readied_own] at e
    cases e
    cases a
  · by_cases m : v ∈ cancelled f.trigger s
    · rw [runAt_readied_cancelled f i s m] at e
      cases e
    · exact ⟨own, m, by rw [← runAt_readied_other own m]; exact e⟩

theorem activeTrigger_readied {u : Trigger} (h : activeTrigger s = some u) (other : u ≠ f.trigger)
    (m : u ∉ cancelled f.trigger s) : activeTrigger (readied f i s) = some u := by
  obtain ⟨x, e, a⟩ := activeTrigger_some h
  exact activeTrigger_of_sub h (fun v r k b => (readied_active k b).2.2) ((runAt_readied_other other m).trans e) a

theorem activeTrigger_readied_none (h : activeTrigger s = none) : activeTrigger (readied f i s) = none := by
  rw [activeTrigger_none] at h ⊢
  exact fun v r e a => h v r (readied_active e a).2.2 a

theorem activeTrigger_readied_cancelled {u : Trigger} (h : activeTrigger s = some u) (one : oneActive s)
    (m : u ∈ cancelled f.trigger s) : activeTrigger (readied f i s) = none := by
  obtain ⟨x, e, b⟩ := activeTrigger_some h
  rw [activeTrigger_none]
  intro v r k a
  obtain ⟨_, kept, stood⟩ := readied_active k a
  exact kept (one u v x r e stood b a ▸ m)

/-- The fresh run waits, or takes the engine from the run that holds it. -/
theorem takeFiring_cases (f : Firing) (i : Fin 64) (s : State) : takeFiring f i s = readied f i s ∨
    ∃ u z, activeTrigger (readied f i s) = some u ∧ u ≠ f.trigger ∧ u ∉ cancelled f.trigger s ∧ runAt s u = some z ∧
      z.state = .active ∧ takeFiring f i s = setRun f.trigger (some { newRun s f i with state := .active })
        (setRun u (some (suspendedRun s.now z)) (readied f i s)) := by
  rw [takeFiring_readied]
  cases a : activeTrigger (readied f i s) with
  | none => exact .inl (preempt_none _ a)
  | some u =>
    obtain ⟨z, e, b⟩ := activeTrigger_some a
    obtain ⟨other, m, stood⟩ := readied_active e b
    by_cases h : z.priority < (newRun s f i).priority
    · refine .inr ⟨u, z, rfl, other, m, stood, b, ?_⟩
      rw [preempt_above a (runAt_readied_own f i s) e h, readied_now]
      exact activate_unstepped (by rw [runAt_setRun, if_neg other]; exact runAt_readied_own f i s) rfl
    · exact .inl (preempt_below a (runAt_readied_own f i s) e (Nat.not_lt.1 h))

end

end Sys2Proof.Machine

/-! What each firing comes to (07, R131, R132, R146, R155 to R157). -/

namespace Sys2Proof.Machine

open Sys2Proof

section
variable (f : Firing) (i : Fin 64) (s : State)

/-! ### A firing taken -/

/-- Beside the runs, a firing taken leaves what the readied state holds. -/
theorem takeFiring_engine : ∃ runs, (takeFiring f i s).engine = { (readied f i s).engine with runs := runs } := by
  obtain same | ⟨_, _, _, _, _, _, _, taken⟩ := takeFiring_cases f i s
  · exact ⟨_, by rw [same]⟩
  · exact ⟨_, by rw [taken]; rfl⟩

theorem continueAt_takeFiring (u : Trigger) : continueAt (takeFiring f i s) u = continueAt (readied f i s) u := by
  obtain ⟨_, e⟩ := takeFiring_engine f i s
  rw [continueAt, e]
  rfl

theorem refireAt_takeFiring (u : Trigger) : refireAt (takeFiring f i s) u = refireAt (readied f i s) u := by
  obtain ⟨_, e⟩ := takeFiring_engine f i s
  rw [refireAt, e]
  rfl

theorem takeFiring_raised {g : AttentionFlag} (h : raised g (readied f i s) = true) :
    raised g (takeFiring f i s) = true := by
  rw [takeFiring_readied]
  exact (preempt_moves f.trigger _).kept.raised h

theorem runAt_takeFiring_own : ∃ p, runAt (takeFiring f i s) f.trigger = some { newRun s f i with state := p } := by
  obtain same | ⟨_, _, _, _, _, _, _, taken⟩ := takeFiring_cases f i s
  · exact ⟨_, by rw [same]; exact runAt_readied_own f i s⟩
  · exact ⟨_, by rw [taken]; exact runAt_setRun_same _ _ _⟩

variable {f i s}

theorem runAt_takeFiring_cancelled {u : Trigger} (m : u ∈ cancelled f.trigger s) : runAt (takeFiring f i s) u = none := by
  obtain same | ⟨v, _, _, _, kept, _, _, taken⟩ := takeFiring_cases f i s
  · rw [same]
    exact runAt_readied_cancelled f i s m
  · have apart : v ≠ u := fun e => kept (e ▸ m)
    rw [taken, runAt_setRun, if_neg (Ne.symm (mem_cancelled.1 m).1), runAt_setRun, if_neg apart]
    exact runAt_readied_cancelled f i s m

theorem runAt_takeFiring_other {u : Trigger} (other : u ≠ f.trigger) (m : u ∉ cancelled f.trigger s)
    (idle : activeTrigger s ≠ some u) (h : activeTrigger s = none ∨ engineInvariant s) :
    runAt (takeFiring f i s) u = runAt s u := by
  obtain same | ⟨v, z, _, _, _, stood, active, taken⟩ := takeFiring_cases f i s
  · rw [same]
    exact runAt_readied_other other m
  · have holder : activeTrigger s = some v := by
      obtain none | engine := h
      · exact absurd active (activeTrigger_none.1 none v z stood)
      · exact activeTrigger_of_one engine.1 stood active
    have apart : v ≠ u := fun e => idle (e ▸ holder)
    rw [taken, runAt_setRun, if_neg (Ne.symm other), runAt_setRun, if_neg apart]
    exact runAt_readied_other other m

theorem takeFiring_waits (h : activeTrigger (readied f i s) = none) : takeFiring f i s = readied f i s := by
  rw [takeFiring_readied, preempt_none _ h]

section
variable {u : Trigger} {z : Run} (h : activeTrigger s = some u) (other : u ≠ f.trigger)
  (m : u ∉ cancelled f.trigger s) (stood : runAt s u = some z)
include h other m stood

theorem takeFiring_below (low : (newRun s f i).priority ≤ z.priority) : takeFiring f i s = readied f i s := by
  rw [takeFiring_readied]
  exact preempt_below (activeTrigger_readied h other m) (runAt_readied_own f i s)
    ((runAt_readied_other other m).trans stood) low

theorem takeFiring_above (high : z.priority < (newRun s f i).priority) : takeFiring f i s =
    setRun f.trigger (some { newRun s f i with state := .active }) (setRun u (some (suspendedRun s.now z)) (readied f i s)) := by
  rw [takeFiring_readied, preempt_above (activeTrigger_readied h other m) (runAt_readied_own f i s)
    ((runAt_readied_other other m).trans stood) high, readied_now]
  exact activate_unstepped (by rw [runAt_setRun, if_neg other]; exact runAt_readied_own f i s) rfl

end

/-! ### The fresh run -/

theorem newRun_request {q : Fin 64 × Nat} (h : f.request = some q) : (newRun s f i).priority = q.2 := by
  simp only [newRun, h]

theorem newRun_priority (h : f.request = none) (k : f.trigger ≠ .crash) :
    (newRun s f i).priority = (triggerAt s f.trigger).priority := by
  simp only [newRun, h, if_neg k]

theorem newRun_crash (h : f.request = none) (k : f.trigger = .crash) : (newRun s f i).priority = 3 := by
  simp only [newRun, h, if_pos k]

theorem newRun_start (h : continueAt s f.trigger = none) : (newRun s f i).stepIndex = i := by
  simp only [newRun, h]

theorem newRun_continues {c : ContinuePoint} (h : continueAt s f.trigger = some c) : (newRun s f i).stepIndex = c.step := by
  simp only [newRun, h]

theorem newRun_hold (k : f.trigger ≠ .crash) :
    (newRun s f i).hold = if (triggerAt s f.trigger).holdToRun then some (s.now + ms 600) else none := by
  cases h : (triggerAt s f.trigger).holdToRun <;> simp [newRun, h, k, Times.holdTime]

theorem newRun_hold_crash (k : f.trigger = .crash) : (newRun s f i).hold = none := by
  simp [newRun, k]

theorem stagedFlag_keyProfile (p : Option Profile) :
    stagedFlag .keyProfile p = true ↔ ∃ q, p = some q ∧ q.unlockMode = .originFirst := by
  cases p <;> simp [stagedFlag]

end

/-- Settles O51. -/
theorem firingsAreDecidedByTheRun : Obligations.FiringsAreDecidedByTheRun := by
  refine ⟨fun f s other => ?standing, fun f i s other start idle => ?taken, fun s => ?sweep, fun f s crash request mark => ?crash⟩
  case standing =>
    rw [fire_other other]
    refine ⟨decideFiring_disabled, fun i r start run => ⟨decideFiring_parked start run, decideFiring_held start run,
      fun plain => ⟨decideFiring_ready start run plain, decideFiring_recorded start run plain⟩⟩⟩
  case taken =>
    intro t tr x cancels
    have same : fire f s = (takeFiring f i s, .fired) := by rw [fire_other other, decideFiring_taken start idle]
    have taken : x = takeFiring f i s := congrArg Prod.fst same
    have member : ∀ u, cancels u ↔ u ∈ cancelled t s := fun u => mem_cancelled.symm
    clear_value x
    subst taken
    obtain ⟨p, run⟩ := runAt_takeFiring_own f i s
    have engine := takeFiring_engine f i s
    refine ⟨congrArg Prod.snd same, ⟨_, run, rfl, rfl, rfl, rfl, rfl, rfl, rfl, rfl, rfl, fun a => ⟨?_, ?_⟩, newRun_hold (i := i) other,
      fun always => ?_, fun never => ?_, fun profile => ?_, fun none => newRun_priority (i := i) none other, fun q some => newRun_request (i := i) some,
      newRun_start, fun c some => newRun_continues some, fun none => ?_, fun u holder c inv => ?_, fun u y holder c stood => ?_⟩,
      ?_, ?_, ?_, ?_, fun u c => ?_, fun u y c stood => ?_, fun u apart c => ?_⟩
    · cases a <;> rfl
    · cases a <;> rfl
    · show stagedFlag tr.staging _ = true
      rw [always]; rfl
    · show stagedFlag tr.staging _ = false
      rw [never]; rfl
    · show stagedFlag tr.staging _ = true ↔ _
      rw [profile, stagedFlag_keyProfile]
    · rw [takeFiring_waits (activeTrigger_readied_none none), runAt_readied_own] at run
      cases run; rfl
    · rw [takeFiring_waits (activeTrigger_readied_cancelled holder inv.1 ((member u).1 c)), runAt_readied_own] at run
      cases run; rfl
    · have m : u ∉ cancelled t s := fun mem => c ((member u).2 mem)
      have apart : u ≠ t := fun e => by rw [e, idle] at stood; cases stood
      refine ⟨fun low => ?_, fun high => ?_⟩
      · have still := takeFiring_below (f := f) (i := i) holder apart m stood low
        rw [still, runAt_readied_own] at run
        cases run
        rw [still]
        exact ⟨rfl, (runAt_readied_other apart m).trans stood⟩
      · have takes := takeFiring_above (f := f) (i := i) holder apart m stood high
        rw [takes, runAt_setRun_same] at run
        cases run
        rw [takes, runAt_setRun, if_neg (Ne.symm apart), runAt_setRun_same]
        exact ⟨rfl, rfl⟩
    · obtain ⟨_, e⟩ := engine
      rw [e]
      exact readied_nextSerial
    · obtain ⟨_, e⟩ := engine
      rw [e]
      exact readied_relock (f := f) (i := i) (s := s)
    · rw [continueAt_takeFiring]
      exact continueAt_readied_own
    · rw [refireAt_takeFiring]
      exact refireAt_readied_kept (not_mem_cancelled t s)
    · have m := (member u).1 c
      exact ⟨runAt_takeFiring_cancelled m, (continueAt_takeFiring f i s u).trans (continueAt_readied_cancelled m)⟩
    · have m := (member u).1 c
      refine ⟨(refireAt_takeFiring f i s u).trans (refireAt_readied_cancelled m stood),
        takeFiring_raised f i s (readied_raises m stood), fun top => ?_⟩
      obtain ⟨_, e⟩ := engine
      rw [e]
      exact readied_latest m stood fun v z mem run => top v z ((member v).2 mem) run
    · have m : u ∉ cancelled t s := fun mem => c ((member u).2 mem)
      exact ⟨(continueAt_takeFiring f i s u).trans (continueAt_readied_other apart m),
        (refireAt_takeFiring f i s u).trans (refireAt_readied_kept m), fun idle h => runAt_takeFiring_other apart m idle h⟩
  case sweep =>
    refine ⟨fun u other => ⟨?_, ?_⟩, fun u => continueAt_crashSweep u s, crashSweep_relock s, ?_, ?_, crashSweep_nextSerial s,
      fun u z other run => ⟨crashSweep_raises other run, fun top => crashSweep_latest other run top⟩, crashSweep_latest_none⟩
    · rw [runAt_crashSweep, if_neg other]
    · rw [refireAt_crashSweep, if_neg other]
    · rw [runAt_crashSweep, if_pos rfl]
    · rw [refireAt_crashSweep, if_pos rfl]
  case crash =>
    intro y
    have triggers : ∀ u, triggerAt y u = triggerAt s u := fun u => by
      rw [triggerAt, (crashSweep_moves s).kept.triggers]
      rfl
    have start : firingStart y f = (triggerAt s .crash).start := by
      simp only [firingStart, request, crash, triggers]
    have same : runAt y .crash = runAt s .crash := by
      rw [runAt_crashSweep, if_pos rfl]
    have point : continueAt y .crash = none := continueAt_crashSweep .crash s
    have serial : y.engine.nextSerial = s.engine.nextSerial := crashSweep_nextSerial s
    have swept : ∀ u, runAt y u = if u = .crash then runAt s u else none := fun u => runAt_crashSweep u s
    have fires : fire f s = decideFiring f y := fire_crash crash
    rw [fires]
    clear_value y
    refine ⟨fun off => decideFiring_disabled (start.trans off), fun i on => ⟨fun r run => ?_, fun none => ?_⟩⟩
    · have run : runAt y f.trigger = some r := by rw [crash, same, run]
      refine ⟨decideFiring_parked (start.trans on) run, decideFiring_ready (start.trans on) run (.inr mark), fun p => ?_⟩
      rw [decideFiring_recorded (start.trans on) run (.inr mark) p, crash]
    · have none' : runAt y f.trigger = .none := by rw [crash, same, none]
      have alone : ∀ u, runAt y u = .none := fun u => by
        rw [swept]
        split
        · next e => rw [e, none]
        · rfl
      have quiet : activeTrigger y = .none := activeTrigger_none.2 fun u r e => by rw [alone u] at e; cases e
      have taken : decideFiring f y = (takeFiring f i y, .fired) := decideFiring_taken (start.trans on) none'
      have waits : takeFiring f i y = readied f i y := takeFiring_waits (activeTrigger_readied_none quiet)
      show (decideFiring f y).2 = .fired ∧ (∀ u, u ≠ .crash → runAt (decideFiring f y).1 u = .none) ∧ _
      rw [taken, waits]
      refine ⟨rfl, fun u other => ?_, _, by rw [← crash]; exact runAt_readied_own f i y, rfl, newRun_crash request crash,
        newRun_hold_crash crash, newRun_start (by rw [crash]; exact point), rfl, rfl, rfl, serial, rfl, rfl, rfl⟩
      by_cases m : u ∈ cancelled f.trigger y
      · exact runAt_readied_cancelled f i y m
      · exact (runAt_readied_other (by rw [crash]; exact other) m).trans (alone u)

end Sys2Proof.Machine

/-! The link's own firing (07, R158). -/

namespace Sys2Proof.Machine

open Sys2Proof

/-- The firing a TRIGGER_FIRE request makes. -/
def linkFiring (i : Fin 64) (p : Nat) (o : Aperture) : Firing :=
  { systemFiring .linkFire o with request := some (i, clampTo 1 2 p) }

theorem takeTriggerFire_busy {i : Fin 64} {p : Nat} {o : Aperture} {s : State} (h : (runAt s .linkFire).isSome = true) :
    takeTriggerFire i p o s = reply .busy [] s := if_pos h

theorem takeTriggerFire_fires {i : Fin 64} {p : Nat} {o : Aperture} {s : State} (h : runAt s .linkFire = none) :
    takeTriggerFire i p o s = reply .ok [13] (finishEvent (fire (linkFiring i p o) s).1) := by
  refine if_neg ?_
  rw [h]
  nofun

theorem originOf_taken (n : Nat) (s : State) (b : Byte) : originOf (taken n s) b = originOf s b := by
  unfold originOf driverAperture
  rw [taken_link_settings]

theorem exec_triggerFire {bs bp bo : Byte} {i : Fin 64} {o : Aperture} {s : State} (serves : Serving s)
    (start : stepIndexOf bs = some i) (origin : originOf s bo = some o) :
    exec (.triggerFire bs bp bo) s = .next (takeTriggerFire i bp.toNat o (taken 3 s)) := by
  refine (hostRequest_ready serves).trans ?_
  rw [start, needs_some, originOf_taken, origin, needs_some]

theorem linkFiring_eq (i : Fin 64) (p : Nat) (o : Aperture) : linkFiring i p o =
    { trigger := .linkFire, carried := { origin := o, role := .system, slot := none, profile := none },
      holdMark := false, request := some (i, max 1 (min 2 p)) } := by
  rw [← clampTo_eq_max_min (by decide)]
  rfl

/-- What the link's firing makes of a trigger without a run. -/
theorem fire_linkFiring {i : Fin 64} {p : Nat} {o : Aperture} {s : State} (idle : runAt s .linkFire = none) :
    (fire (linkFiring i p o) s).1 = takeFiring (linkFiring i p o) i s := by
  rw [fire_other (f := linkFiring i p o) nofun, decideFiring_taken (f := linkFiring i p o) (i := i) rfl idle]

/-- Settles O50. -/
theorem triggerFireMakesALinkRun : Obligations.TriggerFireMakesALinkRun := by
  intro bs bp bo i o s serves start origin
  have meaning := exec_triggerFire (bp := bp) serves start origin
  have idle_taken : runAt s .linkFire = none → runAt (taken 3 s) .linkFire = none := (runAt_taken 3 s .linkFire).trans
  refine ⟨fun busy => ?busy, fun idle => ?fires, fun idle => ?run⟩
  case busy => rw [meaning, takeTriggerFire_busy (by rw [runAt_taken]; exact busy)]
  case fires => rw [meaning, takeTriggerFire_fires (idle_taken idle), linkFiring_eq]
  case run =>
    have fires := takeTriggerFire_fires (i := i) (p := bp.toNat) (o := o) (idle_taken idle)
    rw [fire_linkFiring (idle_taken idle)] at fires
    obtain ⟨p, run⟩ := runAt_takeFiring_own (linkFiring i bp.toNat o) i (taken 3 s)
    refine ⟨_, _, meaning.trans (congrArg _ fires), run, rfl, rfl, rfl, clampTo_eq_max_min (by decide) _, rfl, rfl,
      fun none => ?_, fun c some => ?_, ?_⟩
    · exact newRun_start (f := linkFiring i bp.toNat o) ((continueAt_taken 3 s .linkFire).trans none)
    · exact newRun_continues (f := linkFiring i bp.toNat o) ((continueAt_taken 3 s .linkFire).trans some)
    · exact (continueAt_takeFiring _ i _ .linkFire).trans (continueAt_readied_own (f := linkFiring i bp.toNat o))

end Sys2Proof.Machine

/-! A run retired: its windows and its searches (05, R106; 08, R154). -/

namespace Sys2Proof.Machine

open Sys2Proof

/-! ### One window of a retired run -/

section
variable (t : Trigger) (d : Door) (s : State)

/-- The movement a retired run has in progress is stopped. -/
def stopOwn : State :=
  if inProgress (windowAt s d) && (windowAt s d).motion.any (fun m => decide (m.move.requester = .chain t)) then
    stopMovement d none s
  else s

/-- The follow-on movement of a retired run is removed. -/
def dropOwn : State :=
  if (windowAt s d).followOn.any (fun m => decide (m.requester = .chain t)) then removeFollowOn d none s else s

theorem retireWindow_eq : retireWindow t s d = dropOwn t d (stopOwn t d s) := rfl

theorem stopOwn_work : WindowWork s (stopOwn t d s) := by
  unfold stopOwn
  split
  · exact stopMovement_work d none s
  · exact .refl s

theorem dropOwn_work : WindowWork s (dropOwn t d s) := by
  unfold dropOwn
  split
  · exact removeFollowOn_work d none s
  · exact .refl s

theorem retireWindow_work : WindowWork s (retireWindow t s d) := (stopOwn_work t d s).trans (dropOwn_work t d _)

variable {t d s}

theorem retireWindow_other {e : Door} (h : d ≠ e) : windowAt (retireWindow t s d) e = windowAt s e := by
  have dropped : windowAt (dropOwn t d (stopOwn t d s)) e = windowAt (stopOwn t d s) e := by
    rw [dropOwn]
    split
    · exact removeFollowOn_other h none _
    · rfl
  have stopped : windowAt (stopOwn t d s) e = windowAt s e := by
    rw [stopOwn]
    split
    · exact stopMovement_other h none s
    · rfl
  exact dropped.trans stopped

theorem dropOwn_window : ∃ f, windowAt (dropOwn t d s) d = { windowAt s d with followOn := f } := by
  unfold dropOwn
  split
  · exact ⟨_, removeFollowOn_window none s⟩
  · exact ⟨(windowAt s d).followOn, rfl⟩

theorem dropOwn_alone (h : (windowAt s d).followOn = none) : dropOwn t d s = s := by
  rw [dropOwn, h]
  rfl

theorem dropOwn_drops {f : Movement} (h : (windowAt s d).followOn = none ∨ (windowAt s d).followOn = some f)
    (own : f.requester = .chain t) : (windowAt (dropOwn t d s) d).followOn = none := by
  obtain none | some := h
  · rw [dropOwn_alone none, none]
  · rw [dropOwn, if_pos (by rw [some]; exact decide_eq_true own), removeFollowOn_window]

theorem dropOwn_kept (h : ∀ f, (windowAt s d).followOn = some f → f.requester ≠ .chain t) : dropOwn t d s = s := by
  refine if_neg fun any => ?_
  obtain ⟨f, some, own⟩ := (Option.any_eq_true _ _).1 any
  exact h f some (of_decide_eq_true own)

theorem stopOwn_kept (h : inProgress (windowAt s d) = true → ∀ m, (windowAt s d).motion = some m →
    m.move.requester ≠ .chain t) : stopOwn t d s = s := by
  refine if_neg fun both => ?_
  obtain ⟨works, any⟩ := (Bool.and_eq_true _ _).mp both
  obtain ⟨m, some, own⟩ := (Option.any_eq_true _ _).1 any
  exact h works m some (of_decide_eq_true own)

section
variable {m : Motion} (moves : (windowAt s d).motion = some m) (own : m.move.requester = .chain t)
include moves own

theorem stopOwn_stops (works : inProgress (windowAt s d) = true) : stopOwn t d s = stopMovement d none s := by
  refine if_pos ?_
  rw [works, moves]
  exact decide_eq_true own

theorem stopOwn_running (h : (windowAt s d).phase = .running) : stopOwn t d s = setWindow d (coast s.now (windowAt s d)) s := by
  rw [stopOwn_stops moves own (by simp [inProgress, h]), stopMovement_running none h]
  rfl

theorem stopOwn_marking (h : (windowAt s d).phase = .marking) :
    stopOwn t d s = toIdle d (setWindow d { windowAt s d with motion := none, followOn := none } s) := by
  rw [stopOwn_stops moves own (by simp [inProgress, h]), stopMovement_marking none h]
  exact comeToRest_alone (by rw [windowAt_setWindow_same])

end

theorem stopOwn_followOn : (windowAt (stopOwn t d s) d).followOn = none ∨
    (windowAt (stopOwn t d s) d).followOn = (windowAt s d).followOn := by
  unfold stopOwn
  split
  · next both =>
    obtain ⟨works, _⟩ := (Bool.and_eq_true _ _).mp both
    cases h : (windowAt s d).phase with
    | running =>
      rw [stopMovement_running none h, windowAt_setWindow_same]
      exact .inr rfl
    | marking =>
      rw [stopMovement_marking none h, comeToRest_alone (by rw [windowAt_setWindow_same]), windowAt_toIdle]
      exact .inl rfl
    | idle => simp [inProgress, h] at works
    | coasting => simp [inProgress, h] at works
  · exact .inr rfl

/-! ### What the queue holds of another window -/

theorem offer_keeps {id : RecordId} {c : Content} {l : List WriteWaiter} {e : WriteEntry} (h : e ∈ s.store.queue)
    (other : e.id ≠ id) : e ∈ (offer id c l s).store.queue := by
  unfold offer
  dsimp only
  split
  · exact List.mem_map.2 ⟨e, h, if_neg other⟩
  · exact List.mem_append_left _ h

theorem toIdle_keeps {e : WriteEntry} (h : e ∈ s.store.queue) (other : e.id ≠ .window d) : e ∈ (toIdle d s).store.queue := by
  rw [toIdle_eq]
  exact offer_keeps (s := setWindow d _ s) h other

theorem stopMovement_keeps {e : WriteEntry} (h : e ∈ s.store.queue) (other : e.id ≠ .window d) :
    e ∈ (stopMovement d none s).store.queue := by
  cases k : (windowAt s d).phase with
  | running =>
    rw [stopMovement_running none k]
    exact h
  | marking =>
    rw [stopMovement_marking none k, comeToRest_alone (by rw [windowAt_setWindow_same])]
    exact toIdle_keeps (s := setWindow d _ s) h other
  | idle => rwa [stopMovement_still none (by rw [k]; nofun) (by rw [k]; nofun)]
  | coasting => rwa [stopMovement_still none (by rw [k]; nofun) (by rw [k]; nofun)]

theorem removeFollowOn_queue : (removeFollowOn d none s).store.queue = s.store.queue := by
  unfold removeFollowOn
  dsimp only
  split <;> rfl

theorem retireWindow_keeps {e : WriteEntry} (h : e ∈ s.store.queue) (other : e.id ≠ .window d) :
    e ∈ (retireWindow t s d).store.queue := by
  have stopped : e ∈ (stopOwn t d s).store.queue := by
    rw [stopOwn]
    split
    · exact stopMovement_keeps h other
    · exact h
  rw [retireWindow_eq, dropOwn]
  split
  · rw [removeFollowOn_queue]
    exact stopped
  · exact stopped

end

/-! ### All windows of a retired run -/

/-- The windows and the queue after a run's windows are retired, the searches and the engine's records not yet. -/
def windowsRetired (t : Trigger) (s : State) : State := allDoors.foldl (retireWindow t) s

section
variable {t : Trigger} {d : Door}

theorem foldl_retireWindow_other {l : List Door} (h : d ∉ l) (s : State) :
    windowAt (l.foldl (retireWindow t) s) d = windowAt s d := by
  induction l generalizing s with
  | nil => rfl
  | cons e l ih => rw [List.foldl_cons, ih (List.not_mem_of_not_mem_cons h), retireWindow_other (Ne.symm (List.ne_of_not_mem_cons h))]

theorem foldl_retireWindow_keeps {l : List Door} (h : d ∉ l) {s : State} {e : WriteEntry} (mem : e ∈ s.store.queue)
    (own : e.id = .window d) : e ∈ (l.foldl (retireWindow t) s).store.queue := by
  induction l generalizing s with
  | nil => exact mem
  | cons c l ih =>
    refine ih (List.not_mem_of_not_mem_cons h) (retireWindow_keeps mem fun same => ?_)
    rw [own] at same
    cases same
    exact h (.head _)

theorem foldl_retireWindow_work (l : List Door) (s : State) : WindowWork s (l.foldl (retireWindow t) s) :=
  .foldl (fun s x => retireWindow_work t x s) l s

/-- A window is retired once, on the window as it was. -/
theorem windowsRetired_at (t : Trigger) (d : Door) (s : State) : ∃ x, windowAt x d = windowAt s d ∧ x.now = s.now ∧
    windowAt (windowsRetired t s) d = windowAt (retireWindow t x d) d ∧
    ∀ e ∈ (retireWindow t x d).store.queue, e.id = .window d → e ∈ (windowsRetired t s).store.queue := by
  obtain ⟨pre, post, doors⟩ := List.append_of_mem (mem_allDoors d)
  have once : (pre ++ d :: post).Nodup := doors ▸ (by decide : allDoors.Nodup)
  obtain ⟨_, own, apart⟩ := List.nodup_append.1 once
  have before : d ∉ pre := fun m => apart d m d (.head _) rfl
  have after : d ∉ post := (List.nodup_cons.1 own).1
  refine ⟨pre.foldl (retireWindow t) s, foldl_retireWindow_other before s, ?_, ?_, fun e mem own => ?_⟩
  · rw [foldl_retireWindow_work pre s]
  · rw [windowsRetired, doors, List.foldl_append, List.foldl_cons, foldl_retireWindow_other after]
  · rw [windowsRetired, doors, List.foldl_append, List.foldl_cons]
    exact foldl_retireWindow_keeps after mem own

variable {s : State}

section
variable {m : Motion} (moves : (windowAt s d).motion = some m) (own : m.move.requester = .chain t)
include moves own

theorem windowsRetired_running (h : (windowAt s d).phase = .running) :
    (windowAt (windowsRetired t s) d).phase = .coasting ∧ (windowAt (windowsRetired t s) d).coastEnd = s.now + ms 40 := by
  obtain ⟨x, same, now, last, _⟩ := windowsRetired_at t d s
  rw [← same] at moves h
  obtain ⟨f, dropped⟩ := dropOwn_window (t := t) (d := d) (s := stopOwn t d x)
  rw [last, retireWindow_eq, dropped, stopOwn_running moves own h, windowAt_setWindow_same, now]
  exact ⟨rfl, rfl⟩

theorem windowsRetired_marking (h : (windowAt s d).phase = .marking) :
    (windowAt (windowsRetired t s) d).phase = .idle ∧ (windowAt (windowsRetired t s) d).motion = none ∧
      ∃ e ∈ (windowsRetired t s).store.queue,
        e.id = .window d ∧ e.content = .window (windowAt (windowsRetired t s) d).record := by
  obtain ⟨x, same, _, last, keeps⟩ := windowsRetired_at t d s
  rw [← same] at moves h
  have idle : retireWindow t x d = toIdle d (setWindow d { windowAt x d with motion := none, followOn := none } x) := by
    rw [retireWindow_eq, stopOwn_marking moves own h]
    exact dropOwn_alone (by rw [windowAt_toIdle]; rfl)
  rw [idle] at last keeps
  obtain ⟨e, mem, id, content⟩ := toIdle_stands d (setWindow d { windowAt x d with motion := none, followOn := none } x)
  rw [last]
  refine ⟨toIdle_phase _, ?_, e, keeps e mem id, id, content⟩
  rw [windowAt_toIdle]
  rfl

end

theorem windowsRetired_followOn {f : Movement} (follows : (windowAt s d).followOn = some f) (own : f.requester = .chain t) :
    (windowAt (windowsRetired t s) d).followOn = none := by
  obtain ⟨x, same, _, last, _⟩ := windowsRetired_at t d s
  rw [last, retireWindow_eq]
  rw [← same] at follows
  exact dropOwn_drops ((stopOwn_followOn (t := t)).imp_right fun e => e.trans follows) own

theorem windowsRetired_kept (moves : inProgress (windowAt s d) = true → ∀ m, (windowAt s d).motion = some m →
      m.move.requester ≠ .chain t) (follows : ∀ f, (windowAt s d).followOn = some f → f.requester ≠ .chain t) :
    windowAt (windowsRetired t s) d = windowAt s d := by
  obtain ⟨x, same, _, last, _⟩ := windowsRetired_at t d s
  rw [← same] at moves follows
  rw [last, retireWindow_eq, stopOwn_kept moves, dropOwn_kept follows, same]

/-! ### The whole retirement -/

theorem retire_eq {r : Run} (o : RunOutcome) (h : runAt s t = some r) : retire t o s =
    removeRun t r o (if r.steps = 0 then none else some r.stepIndex) (setRefire t none (dropWaiter t (windowsRetired t s))) := by
  unfold retire
  rw [h]
  rfl

section
variable (r : Run) (o : RunOutcome) (l : Option (Fin 64)) (x : State)

theorem removeRun_windowAt : windowAt (removeRun t r o l (setRefire t none (dropWaiter t x))) d = windowAt x d := rfl
theorem removeRun_store : (removeRun t r o l (setRefire t none (dropWaiter t x))).store = x.store := rfl
theorem removeRun_latches : (removeRun t r o l (setRefire t none (dropWaiter t x))).latches = x.latches := rfl
theorem removeRun_entry : (removeRun t r o l (setRefire t none (dropWaiter t x))).entry = (dropWaiter t x).entry := rfl

end

theorem windowsRetired_latches : (windowsRetired t s).latches = s.latches := by
  rw [windowsRetired, foldl_retireWindow_work allDoors s]

theorem windowsRetired_entry : (windowsRetired t s).entry = s.entry := by
  rw [windowsRetired, foldl_retireWindow_work allDoors s]

end

end Sys2Proof.Machine

/-! Runs resolved, and released (07, R138; 08, R148, R154). -/

namespace Sys2Proof.Machine

open Sys2Proof

/-! ### A faulted run taken up again -/

theorem retryAperture_kept (r : Run) (b : Aperture) : retryAperture r b =
    { r with remaining := (retryAperture r b).remaining, outcomes := (retryAperture r b).outcomes } := by
  unfold retryAperture
  split <;> rfl

theorem retryAperture_faulted {r : Run} {a : Aperture} {k : FaultKind} (h : r.outcomes.get a = some (.fault k)) :
    retryAperture r a = { r with remaining := r.remaining.set a true, outcomes := r.outcomes.set a none } := by
  unfold retryAperture
  rw [h]

theorem retryAperture_other {r : Run} {a : Aperture} (h : ∀ k, r.outcomes.get a ≠ some (.fault k)) :
    retryAperture r a = r := by
  unfold retryAperture
  split
  · next k e => exact absurd e (h k)
  · rfl

theorem retryAperture_get {a b : Aperture} (h : b ≠ a) (r : Run) :
    (retryAperture r b).remaining.get a = r.remaining.get a ∧ (retryAperture r b).outcomes.get a = r.outcomes.get a := by
  unfold retryAperture
  split
  · exact ⟨(Five.get_set ..).trans (if_neg h), (Five.get_set ..).trans (if_neg h)⟩
  · exact ⟨rfl, rfl⟩

/-- A run whose faulted apertures have no outcome, and remain. -/
def retried (r : Run) : Run := allApertures.foldl retryAperture r

theorem foldl_retryAperture_kept (l : List Aperture) (r : Run) : l.foldl retryAperture r =
    { r with remaining := (l.foldl retryAperture r).remaining, outcomes := (l.foldl retryAperture r).outcomes } := by
  induction l generalizing r with
  | nil => rfl
  | cons b l ih =>
    rw [List.foldl_cons]
    refine (ih _).trans ?_
    rw [retryAperture_kept r b]

theorem retried_kept (r : Run) : retried r = { r with remaining := (retried r).remaining, outcomes := (retried r).outcomes } :=
  foldl_retryAperture_kept allApertures r

theorem foldl_retryAperture_clean {a : Aperture} (l : List Aperture) {r : Run} (h : ∀ k, r.outcomes.get a ≠ some (.fault k)) :
    (l.foldl retryAperture r).remaining.get a = r.remaining.get a ∧
      (l.foldl retryAperture r).outcomes.get a = r.outcomes.get a := by
  induction l generalizing r with
  | nil => exact ⟨rfl, rfl⟩
  | cons b l ih =>
    by_cases same : b = a
    · subst same
      rw [List.foldl_cons, retryAperture_other h]
      exact ih h
    · obtain ⟨left, outcome⟩ := retryAperture_get same r
      rw [← left, ← outcome]
      exact ih fun k => outcome ▸ h k

theorem foldl_retryAperture_faulted {a : Aperture} {l : List Aperture} (mem : a ∈ l) {r : Run} {k : FaultKind}
    (h : r.outcomes.get a = some (.fault k)) :
    (l.foldl retryAperture r).remaining.get a = true ∧ (l.foldl retryAperture r).outcomes.get a = none := by
  induction l generalizing r with
  | nil => cases mem
  | cons b l ih =>
    rw [List.foldl_cons]
    by_cases same : b = a
    · subst same
      have left : (retryAperture r b).remaining.get b = true := by
        rw [retryAperture_faulted h]
        exact Five.get_set_same _ _ _
      have outcome : (retryAperture r b).outcomes.get b = none := by
        rw [retryAperture_faulted h]
        exact Five.get_set_same _ _ _
      obtain ⟨kept, clean⟩ := foldl_retryAperture_clean l (r := retryAperture r b) (a := b) (by rw [outcome]; nofun)
      exact ⟨kept.trans left, clean.trans outcome⟩
    · exact ih ((List.mem_cons.1 mem).resolve_left (Ne.symm same)) ((retryAperture_get same r).2.trans h)

/-- The run READY again, with its hold started anew where its trigger holds runs. -/
def readyAgain (u : Trigger) (r : Run) (s : State) : Run :=
  { retried r with
    fault := none, state := .ready, hold := if (triggerAt s u).holdToRun then some (s.now + ms 600) else none }

theorem retryRun_eq (u : Trigger) (r : Run) (s : State) :
    retryRun u r s = preempt u (setRun u (some (readyAgain u r s)) s) := rfl

theorem readyAgain_kept (u : Trigger) (r : Run) (s : State) : readyAgain u r s = { r with
    state := .ready, fault := none
    remaining := (readyAgain u r s).remaining
    outcomes := (readyAgain u r s).outcomes
    hold := if (triggerAt s u).holdToRun then some (s.now + ms 600) else none } := by
  rw [readyAgain, retried_kept]

/-! ### The run to resolve -/

section
variable {u : Trigger} {act : Run → State → State} {s : State}

theorem resolve_none (h : runAt s u = none) : resolve u act s = reply .notFound [] s := by
  unfold resolve
  rw [h]

theorem resolve_other {r : Run} (h : runAt s u = some r) (k : r.state ≠ .faulted) :
    resolve u act s = reply (.refused .notFaulted) [] s := by
  unfold resolve
  rw [h]
  exact if_neg k

theorem resolve_faulted {r : Run} (h : runAt s u = some r) (k : r.state = .faulted) :
    resolve u act s = reply .ok [] (finishEvent (act r s)) := by
  unfold resolve
  rw [h]
  exact if_pos k

variable {b : Byte} (serves : Serving s) (named : triggerOfByte b = some u)
include serves named

theorem exec_runResolveRetry : exec (.runResolveRetry b) s = .next (resolve u (retryRun u) (taken 2 s)) := by
  refine (hostRequest_ready serves).trans ?_
  rw [named, needs_some]

theorem exec_runResolveAbandon :
    exec (.runResolveAbandon b) s = .next (resolve u (fun _ => retire u .abandoned) (taken 2 s)) := by
  refine (hostRequest_ready serves).trans ?_
  rw [named, needs_some]

end

theorem finishEvent_still {s : State} (idle : activeTrigger s = none) (h : s.mail = []) : finishEvent s = s :=
  finishEvent_settled ⟨h, engineMove_none_of_idle idle⟩

/-! ### A run that is not ACTIVE replaced by one that is not either -/

section
variable {u : Trigger} {y : Run} {s : State} (waiting : y.state ≠ .active)
include waiting

theorem active_setRun {v : Trigger} {x : Run} (e : runAt (setRun u (some y) s) v = some x) (a : x.state = .active) :
    runAt s v = some x := by
  rw [runAt_setRun] at e
  split at e
  · cases e
    exact absurd a waiting
  · exact e

theorem activeTrigger_setRun_none (h : activeTrigger s = none) : activeTrigger (setRun u (some y) s) = none :=
  activeTrigger_none.2 fun v x e a => activeTrigger_none.1 h v x (active_setRun waiting e a) a

theorem activeTrigger_setRun {v : Trigger} (h : activeTrigger s = some v) (other : v ≠ u) :
    activeTrigger (setRun u (some y) s) = some v := by
  obtain ⟨x, e, a⟩ := activeTrigger_some h
  refine activeTrigger_of_sub h (fun v x => active_setRun waiting) (r := x) ?_ a
  rw [runAt_setRun, if_neg (Ne.symm other), e]

end

@[simp] theorem activeTrigger_taken (n : Nat) (s : State) : activeTrigger (taken n s) = activeTrigger s := by
  simp only [activeTrigger, runAt_taken]


/-! ### A run retired -/

theorem refireAt_retire (t u : Trigger) (o : RunOutcome) {s : State} {r : Run} (h : runAt s t = some r) :
    refireAt (retire t o s) u = if t = u then none else refireAt s u := by
  rw [refireAt, retire_engine o h]
  exact look_put_trigger _ t u none

theorem retire_latest (t : Trigger) (o : RunOutcome) {s : State} {r : Run} (h : runAt s t = some r) :
    (retire t o s).engine.latest = some { trigger := t, outcome := o, slot := r.slot,
                                          lastStep := if r.steps = 0 then none else some r.stepIndex } := by
  rw [retire_engine o h]

/-- A run whose hold has ended is released (07, R138). -/
theorem holdExpiry_released {u : Trigger} {s : State} {r : Run} {e : Nat} (h : runAt s u = some r) (k : r.hold = some e) :
    holdExpiry u s = finishEvent (retire u .released (clockTo e s)) := by
  unfold holdExpiry
  simp only [h, k]

section
variable (u : Trigger) (o : RunOutcome) {r : Run} {s : State} (h : runAt s u = some r)
include h

theorem retire_windowAt (d : Door) : windowAt (retire u o s) d = windowAt (windowsRetired u s) d := by
  rw [retire_eq o h, removeRun_windowAt]

theorem retire_store : (retire u o s).store = (windowsRetired u s).store := by
  rw [retire_eq o h, removeRun_store]

theorem retire_latches : (retire u o s).latches = s.latches := by
  rw [retire_eq o h, removeRun_latches, windowsRetired_latches]

theorem retire_entry : (retire u o s).entry = (dropWaiter u s).entry := by
  rw [retire_eq o h, removeRun_entry, dropWaiter, dropWaiter]
  dsimp only
  rw [windowsRetired_entry]

end

/-- A run retired: the records of the engine, its windows and its searches. -/
theorem retirement (u : Trigger) (o : RunOutcome) (r : Run) (s : State) (h : runAt s u = some r) :
    let x := retire u o s
    let mine := fun m : Movement => m.requester = .chain u
    let keep := fun w : SearchWaiter => match w with
      | .link => true
      | .run v _ => decide (v ≠ u)
    runAt x u = none ∧ refireAt x u = none ∧ raised .chainDone x = true ∧
    x.engine.latest = some { trigger := u, outcome := o, slot := r.slot,
                             lastStep := if r.steps = 0 then none else some r.stepIndex } ∧
    (∀ v, v ≠ u → runAt x v = runAt s v ∧ refireAt x v = refireAt s v) ∧
    (∀ v, continueAt x v = continueAt s v) ∧ x.engine.relock = s.engine.relock ∧
    x.latches = s.latches ∧ x.mail = s.mail ∧
    (∀ d m, (windowAt s d).motion = some m → mine m.move →
      ((windowAt s d).phase = .running → (windowAt x d).phase = .coasting ∧ (windowAt x d).coastEnd = s.now + ms 40) ∧
      ((windowAt s d).phase = .marking → (windowAt x d).phase = .idle ∧ (windowAt x d).motion = none ∧
        ∃ e ∈ x.store.queue, e.id = .window d ∧ e.content = .window (windowAt x d).record)) ∧
    (∀ d f, (windowAt s d).followOn = some f → mine f → (windowAt x d).followOn = none) ∧
    (∀ d, (inProgress (windowAt s d) = true → ∀ m, (windowAt s d).motion = some m → ¬mine m.move) →
      (∀ f, (windowAt s d).followOn = some f → ¬mine f) → windowAt x d = windowAt s d) ∧
    x.entry.search = s.entry.search.map (fun f => { f with waiters := f.waiters.filter keep }) ∧
    x.entry.queue = (s.entry.queue.map fun q => { q with waiters := q.waiters.filter keep }).filter fun q =>
      q.purpose ≠ .insideCheck || !q.waiters.isEmpty := by
  dsimp only
  have windows := retire_windowAt u o h
  have store := retire_store u o h
  have entry := retire_entry u o h
  refine ⟨?_, ?_, retire_raises o h, retire_latest u o h, fun v other => ⟨?_, ?_⟩, fun v => continueAt_retire u v o s, ?_,
    retire_latches u o h, retire_mail u o s, fun d m moves own => ⟨fun run => ?_, fun mark => ?_⟩,
    fun d f follows own => ?_, fun d moves follows => ?_, ?_, ?_⟩
  · rw [runAt_retire, if_pos rfl]
  · rw [refireAt_retire u u o h, if_pos rfl]
  · rw [runAt_retire, if_neg (Ne.symm other)]
  · rw [refireAt_retire u v o h, if_neg (Ne.symm other)]
  · rw [retire_engine o h]
  · rw [windows]
    exact windowsRetired_running moves own run
  · rw [windows, store]
    exact windowsRetired_marking moves own mark
  · rw [windows]
    exact windowsRetired_followOn follows own
  · rw [windows]
    exact windowsRetired_kept moves follows
  · rw [entry]
    rfl
  · rw [entry]
    rfl

/-- Settles O52. -/
theorem runsAreResolvedAndReleased : Obligations.RunsAreResolvedAndReleased := by
  refine ⟨fun b u s serves named => ?resolved, fun u r e s power run hold => ?released, retirement⟩
  case released =>
    have meaning : exec (.holdTimerExpiry u) s = .next (finishEvent (retire u .released (clockTo e s))) :=
      (event_running (holdExpiry u) power).trans (congrArg _ (holdExpiry_released run hold))
    have run : runAt (clockTo e s) u = some r := run
    refine ⟨meaning, _, meaning, ?_, retire_raises .released run, (retire_moves u .released _).kept.now, ?_,
      retire_latest u .released run⟩
    · rw [runAt_retire, if_pos rfl]
    · rw [refireAt_retire u u .released run, if_pos rfl]
  case resolved =>
    have retry := exec_runResolveRetry serves named
    have abandon := exec_runResolveAbandon serves named
    have same : runAt (taken 2 s) u = runAt s u := runAt_taken 2 s u
    refine ⟨fun idle => ?_, fun r run clear => ?_, fun r run faulted => ?_⟩
    · rw [retry, abandon, resolve_none (same.trans idle), resolve_none (same.trans idle)]
      exact ⟨rfl, rfl⟩
    · rw [retry, abandon, resolve_other (same.trans run) clear, resolve_other (same.trans run) clear]
      exact ⟨rfl, rfl⟩
    · have run' : runAt (taken 2 s) u = some r := same.trans run
      rw [resolve_faulted run' faulted] at retry abandon
      rw [retryRun_eq] at retry
      have kept := readyAgain_kept u r (taken 2 s)
      rw [triggerAt_taken, taken_now] at kept
      have clean : ∀ a, (∀ k, r.outcomes.get a ≠ some (.fault k)) →
          (readyAgain u r (taken 2 s)).remaining.get a = r.remaining.get a ∧
            (readyAgain u r (taken 2 s)).outcomes.get a = r.outcomes.get a :=
        fun a h => foldl_retryAperture_clean allApertures h
      have again : ∀ a k, r.outcomes.get a = some (.fault k) → (readyAgain u r (taken 2 s)).remaining.get a = true ∧
          (readyAgain u r (taken 2 s)).outcomes.get a = none :=
        fun a k h => foldl_retryAperture_faulted (mem_allApertures a) h
      generalize readyAgain u r (taken 2 s) = y at retry kept clean again
      have waiting : y.state ≠ .active := by rw [kept]; nofun
      have alone : activeTrigger s = none → activeTrigger (setRun u (some y) (taken 2 s)) = none :=
        fun idle => activeTrigger_setRun_none waiting ((activeTrigger_taken 2 s).trans idle)
      refine ⟨⟨_, abandon, ?_, retire_raises .abandoned run', ?_, retire_latest u .abandoned run'⟩, abandon,
        ⟨y, kept, again, clean, fun idle => ?_, fun v x holder stood => ?_⟩, fun idle mail => ?_⟩
      · rw [runAt_retire, if_pos rfl]
      · rw [refireAt_retire u u .abandoned run', if_pos rfl]
      · rw [retry, preempt_none _ (alone idle)]
      · have other : v ≠ u := fun e => by
          obtain ⟨z, e', a⟩ := activeTrigger_some holder
          rw [e, run] at e'
          cases e'
          rw [faulted] at a
          cases a
        have holder' := activeTrigger_setRun (y := y) waiting ((activeTrigger_taken 2 s).trans holder) other
        have own : runAt (setRun u (some y) (taken 2 s)) u = some y := runAt_setRun_same _ _ _
        have stood' : runAt (setRun u (some y) (taken 2 s)) v = some x := by
          rw [runAt_setRun, if_neg (Ne.symm other), runAt_taken, stood]
        have priority : y.priority = r.priority := by rw [kept]
        refine ⟨fun low => ?_, fun high => ?_⟩
        · rw [retry, preempt_below holder' own stood' (by rw [priority]; exact low)]
        · have now : (setRun u (some y) (taken 2 s)).now = s.now := taken_now 2 s
          rw [retry, preempt_above holder' own stood' (by rw [priority]; exact high), now]
          generalize setRun u (some y) (taken 2 s) = z
          rfl
      · rw [preempt_none _ (alone idle), finishEvent_still (alone idle) ((taken_mail 2 s).trans mail)] at retry
        refine ⟨_, y, retry, runAt_setRun_same _ _ _, ?_, ?_, ?_, ?_, ?_, again,
          (reply_link_state ..).trans ?_⟩
        case refine_6 => rw [setRun_link, taken_link_overrun]
        all_goals rw [kept]

end Sys2Proof.Machine

/-! The engine's timers, its notices, the end of a step and of a run (07, R127; 08, R137, R139 to R145). -/

namespace Sys2Proof.Machine

open Sys2Proof

/-! ### The timers -/

theorem relockExpiry_fires {e : Nat} {s : State} (h : s.engine.relock = some e) : relockExpiry s =
    finishEvent (fire (systemFiring .autoRelock (driverAperture s)) (stopRelock (clockTo e s))).1 := by
  unfold relockExpiry
  rw [h]
  rfl

theorem continueExpiry_ends {u : Trigger} {c : ContinuePoint} {s : State} (h : continueAt s u = some c) :
    continueExpiry u s = setContinue u none (clockTo c.expiry s) := by
  unfold continueExpiry
  rw [h]

theorem pauseEnd_ends {u : Trigger} {r : Run} {left since : Nat} {s : State} (holder : activeTrigger s = some u)
    (run : runAt s u = some r) (pause : r.pause = some { left, since := some since }) :
    pauseEnd s = finishEvent (setRun u (some { r with pause := none }) (clockTo (since + left) s)) := by
  unfold pauseEnd
  simp only [holder, run, pause]

/-! ### The end of an event -/

theorem settle_moved {s x : State} (h : engineMove s = some x) (n : Nat) : settle (n + 1) s = settle n x := by
  conv => lhs; unfold settle
  rw [h]

section
variable {n : Notice} {s : State}

theorem recordNotice_given {r : Run} (h : runAt s n.trigger = some r)
    (own : r.serial = n.serial ∧ r.steps = n.count ∧ r.remaining.get n.aperture = true) :
    recordNotice s n = setRun n.trigger (some (giveOutcome r n.aperture n.outcome)) s := by
  unfold recordNotice
  rw [h]
  exact if_pos own

theorem recordNotice_ignored
    (h : ∀ r, runAt s n.trigger = some r → ¬(r.serial = n.serial ∧ r.steps = n.count ∧ r.remaining.get n.aperture = true)) :
    recordNotice s n = s := by
  unfold recordNotice
  split
  · rfl
  · next r run => exact if_neg (h r run)

end

/-! ### The first fault of a step -/

theorem faultAt_faulted {r : Run} {a : Aperture} {k : FaultKind} (h : r.outcomes.get a = some (.fault k)) :
    faultAt r a = some (k, some a) := by
  unfold faultAt
  rw [h]

theorem faultAt_clean {r : Run} {a : Aperture} (h : ∀ k, r.outcomes.get a ≠ some (.fault k)) : faultAt r a = none := by
  unfold faultAt
  split
  · next k e => exact absurd e (h k)
  · rfl

theorem allApertures_ordered : allApertures.Pairwise fun a b => apertureCode a < apertureCode b := by decide

theorem firstFault_lowest {r : Run} {a : Aperture} {k : FaultKind} (h : r.outcomes.get a = some (.fault k))
    (lowest : ∀ b, apertureCode b < apertureCode a → ∀ j, r.outcomes.get b ≠ some (.fault j)) :
    firstFault r = some (k, some a) := by
  obtain ⟨pre, post, split⟩ := List.append_of_mem (mem_allApertures a)
  have before : ∀ b ∈ pre, faultAt r b = none := fun b m => faultAt_clean <| lowest b <| by
    have order := allApertures_ordered
    rw [split, List.pairwise_append] at order
    exact order.2.2 b m a (.head _)
  rw [firstFault, split, List.findSome?_append, List.findSome?_eq_none_iff.2 before, List.findSome?_cons, faultAt_faulted h]
  rfl

theorem firstFault_clean {r : Run} (h : ∀ a k, r.outcomes.get a ≠ some (.fault k)) : firstFault r = none :=
  List.findSome?_eq_none_iff.2 fun a _ => faultAt_clean (h a)

/-! ### The end of a step -/

theorem noneLeft_iff (r : Run) : noneLeft r = true ↔ ∀ a, r.remaining.get a = false := by
  simp [noneLeft, mem_allApertures]

section
variable {r : Run} {st : Step}

theorem stepDone_pause (h : st.action = .pause) : stepDone r st = true ↔ r.pause = none := by
  rw [stepDone, h]
  exact Option.isNone_iff_eq_none

theorem stepDone_check (h : st.action = .checkInside) : stepDone r st = true ↔ r.searchResult ≠ none := by
  rw [stepDone, h]
  exact Option.isSome_iff_ne_none

theorem stepDone_issued (h : st.action ≠ .pause) (k : st.action ≠ .checkInside) :
    stepDone r st = true ↔ ∀ a, r.remaining.get a = false := by
  rw [← noneLeft_iff]
  unfold stepDone
  split
  · next e => exact absurd e h
  · next e => exact absurd e k
  · rfl

variable {u : Trigger} {s : State}

theorem engineMove_step (holder : activeTrigger s = some u) (run : runAt s u = some r) (begun : r.step = some st) :
    engineMove s = if stepDone r st then some (completeStep u r st s) else none := by
  unfold engineMove
  simp only [holder, run, begun]

theorem completeStep_inside (h : st.action = .checkInside) (k : r.searchResult = some true) :
    completeStep u r st s = endRun u r .keyInside (raise .keyInside s) := if_pos ⟨h, k⟩

section
variable (h : st.action ≠ .checkInside ∨ r.searchResult ≠ some true)
include h

omit u s in
theorem not_inside : ¬(st.action = .checkInside ∧ r.searchResult = some true) := fun ⟨check, found⟩ =>
  h.elim (absurd check) (absurd found)

theorem completeStep_clean (k : firstFault r = none) : completeStep u r st s = afterStep u r st s := by
  unfold completeStep
  rw [if_neg (not_inside h), k]

theorem completeStep_parks {f : FaultKind × Option Aperture} (k : firstFault r = some f) (other : u ≠ .crash) :
    completeStep u r st s = park u r f s := by
  unfold completeStep
  rw [if_neg (not_inside h), k]
  exact if_neg other

theorem completeStep_crash {f : FaultKind × Option Aperture} (k : firstFault r = some f) :
    completeStep .crash r st s = afterStep .crash { r with fault := r.fault.or (some f) } st
      (raise .chainFault (setRun .crash (some { r with fault := r.fault.or (some f) }) s)) := by
  unfold completeStep
  rw [if_neg (not_inside h), k]
  rfl

end

/-- What a run parked leaves. -/
theorem park_leaves (u : Trigger) (r : Run) (f : FaultKind × Option Aperture) (s : State) :
    raised .chainFault (park u r f s) = true ∧
      runAt (park u r f s) u = some { r with state := .faulted, fault := some f, hold := none } ∧
      (∀ v, v ≠ u → runAt (park u r f s) v = runAt s v) ∧ refireAt (park u r f s) u = refireAt s u ∧
      (park u r f s).engine.latest = s.engine.latest ∧ (park u r f s).engine.relock = s.engine.relock :=
  ⟨raised_raise _ _, runAt_setRun_same _ _ _, fun _ other => runAt_setRun_other other, rfl, rfl, rfl⟩

/-! ### After a step -/

/-- The state a completed step is left in: its notice raised. -/
def notified (st : Step) (s : State) : State := if hasNotify st then raise .chainNotify s else s

theorem afterStep_stops (h : hasStop st = true) : afterStep u r st s = endRun u r .completed (notified st s) := if_pos h

theorem notified_now (st : Step) (s : State) : (notified st s).now = s.now := by
  unfold notified
  split <;> rfl

theorem notified_settings (st : Step) (s : State) : (notified st s).link.settings = s.link.settings := by
  unfold notified
  split <;> rfl

section
variable (h : hasStop st = false)
include h

theorem afterStep_stages (k : hasStage st = true) (staged : r.staged = true) : afterStep u r st s = endRun u r .staged
    (setContinue u (some { step := st.next, expiry := s.now + ms (s.link.settings.stagedWindow * 1000) }) (notified st s)) := by
  rw [← notified_now st s, ← notified_settings st s]
  refine (if_neg (by simp [h])).trans (if_pos ?_)
  rw [k, staged]
  rfl

variable (k : hasStage st = false ∨ r.staged = false)
include k

omit h in
theorem not_staged : (hasStage st && r.staged) = false := by
  obtain k | k := k <;> simp [k]

theorem afterStep_runaway (long : 64 ≤ r.steps) : afterStep u r st s = endRun u r .runaway (notified st s) :=
  (if_neg (by simp [h])).trans ((if_neg (by simp [not_staged k])).trans (if_pos long))

theorem afterStep_goes (short : r.steps < 64) :
    afterStep u r st s = setRun u (some { r with stepIndex := st.next, step := none }) (notified st s) :=
  (if_neg (by simp [h])).trans ((if_neg (by simp [not_staged k])).trans (if_neg (Nat.not_le.2 short)))

end

end

/-! ### The end of a run -/

/-- A run removed with its outcome, and the relock timer started where it is due. -/
def runEnded (u : Trigger) (r : Run) (o : RunOutcome) (s : State) : State :=
  startRelock u o (removeRun u r o (some r.stepIndex) s)

section
variable (u : Trigger) (r : Run) (o : RunOutcome) (s : State)

theorem startRelock_engine (s : State) : ∃ e, startRelock u o s = { s with engine := { s.engine with relock := e } } := by
  unfold startRelock
  split
  · exact ⟨_, rfl⟩
  · exact ⟨s.engine.relock, rfl⟩

theorem runEnded_eq : ∃ e, runEnded u r o s = { removeRun u r o (some r.stepIndex) s with
    engine := { (removeRun u r o (some r.stepIndex) s).engine with relock := e } } := startRelock_engine u o _

theorem runAt_runEnded (v : Trigger) : runAt (runEnded u r o s) v = if u = v then none else runAt s v := by
  obtain ⟨_, e⟩ := runEnded_eq u r o s
  rw [e]
  exact runAt_setRun u v none s

theorem refireAt_runEnded (v : Trigger) : refireAt (runEnded u r o s) v = refireAt s v := by
  obtain ⟨_, e⟩ := runEnded_eq u r o s
  rw [e]
  rfl

theorem continueAt_runEnded (v : Trigger) : continueAt (runEnded u r o s) v = continueAt s v := by
  obtain ⟨_, e⟩ := runEnded_eq u r o s
  rw [e]
  rfl

theorem runEnded_raises : raised .chainDone (runEnded u r o s) = true := by
  obtain ⟨_, e⟩ := runEnded_eq u r o s
  rw [e]
  exact removeRun_raises u r o (some r.stepIndex) s

theorem runEnded_latest : (runEnded u r o s).engine.latest =
    some { trigger := u, outcome := o, slot := r.slot, lastStep := some r.stepIndex } := by
  obtain ⟨_, e⟩ := runEnded_eq u r o s
  rw [e]
  rfl

variable {u r o s}

theorem runEnded_relocks (unlocks : u = .fobUnlock ∨ u = .passiveUnlock) (ends : o = .completed ∨ o = .staged)
    (off : s.vehicle.powerMode = .off) (mode : s.sup.mode ≠ .autonomous) :
    (runEnded u r o s).engine.relock = some (s.now + ms (s.link.settings.relockDelay * 1000)) := by
  have due : runEnded u r o s = _ := if_pos ⟨unlocks, ends, off, mode⟩
  rw [due]
  rfl

theorem runEnded_keepsRelock (h : (u ≠ .fobUnlock ∧ u ≠ .passiveUnlock) ∨ (o ≠ .completed ∧ o ≠ .staged) ∨
    s.vehicle.powerMode ≠ .off ∨ s.sup.mode = .autonomous) : (runEnded u r o s).engine.relock = s.engine.relock := by
  have same : runEnded u r o s = removeRun u r o (some r.stepIndex) s := by
    refine if_neg fun ⟨unlocks, ends, off, mode⟩ => ?_
    obtain ⟨fob, passive⟩ | ⟨done, staged⟩ | on | autonomous := h
    · exact unlocks.elim fob passive
    · exact ends.elim done staged
    · exact on off
    · exact mode autonomous
  rw [same]
  rfl

theorem endRun_alone (h : refireAt s u = none) : endRun u r o s = runEnded u r o s := by
  have k : refireAt (runEnded u r o s) u = none := (refireAt_runEnded u r o s u).trans h
  rw [runEnded] at k ⊢
  unfold endRun
  simp only [k]

theorem endRun_refires {c : Carried} (h : refireAt s u = some c) : endRun u r o s =
    (fire { trigger := u, carried := c, holdMark := false, request := none } (setRefire u none (runEnded u r o s))).1 := by
  have k : refireAt (runEnded u r o s) u = some c := (refireAt_runEnded u r o s u).trans h
  rw [runEnded] at k ⊢
  unfold endRun
  simp only [k]

end

/-- Settles O53. -/
theorem engineTimersExpire : Obligations.EngineTimersExpire := by
  refine ⟨fun e s power timer => ?relock, fun u c s power point => ?point, fun u r left since s power holder run pause => ?pause,
    ⟨fun _ => rfl, fun n s => ⟨settle_still n, fun x move => settle_moved move n⟩⟩, fun s => settled_finishEvent,
    ⟨fun _ => rfl, fun n s => ⟨fun r => recordNotice_given, recordNotice_ignored⟩⟩, fun u r st s holder run begun => ?step,
    fun r => ⟨fun a k => firstFault_lowest, firstFault_clean⟩,
    fun u r st s => ⟨afterStep_stops, afterStep_stages, fun goes alone => ⟨afterStep_runaway goes alone, afterStep_goes goes alone⟩⟩,
    fun u r o s => ?run⟩
  case relock => exact (event_running relockExpiry power).trans (congrArg _ (relockExpiry_fires timer))
  case point =>
    refine ⟨_, (event_running (continueExpiry u) power).trans (congrArg _ (continueExpiry_ends point)), ?_, rfl, rfl, rfl,
      fun v other => ?_⟩
    · exact (continueAt_setContinue u u none _).trans (if_pos rfl)
    · exact (continueAt_setContinue u v none _).trans (if_neg (Ne.symm other))
  case pause => exact (event_running pauseEnd power).trans (congrArg _ (pauseEnd_ends holder run pause))
  case step =>
    have move := engineMove_step holder run begun
    refine ⟨fun waits => by rw [move, waits]; rfl, stepDone_pause, stepDone_check, stepDone_issued, fun done => ?_⟩
    have move : engineMove s = some (completeStep u r st s) := by rw [move, done]; rfl
    refine ⟨fun check found => by rw [move, completeStep_inside check found], fun out => ⟨fun f fault => ⟨fun other => ?_, fun crash => ?_⟩,
      fun clean => by rw [move, completeStep_clean out clean]⟩⟩
    · exact ⟨_, move.trans (congrArg _ (completeStep_parks out fault other)), park_leaves u r f s⟩
    · subst crash
      exact move.trans (congrArg _ (completeStep_crash out fault))
  case run =>
    refine ⟨runEnded u r o s, endRun_alone, fun c => endRun_refires, ?_, fun v other => ?_, runEnded_raises u r o s,
      runEnded_latest u r o s, fun v => ⟨continueAt_runEnded u r o s v, refireAt_runEnded u r o s v⟩, runEnded_relocks,
      runEnded_keepsRelock⟩
    · rw [runAt_runEnded, if_pos rfl]
    · rw [runAt_runEnded, if_neg (Ne.symm other)]

end Sys2Proof.Machine

/-! The run chosen, activated, and its step begun (07, R126, R128, R133; 08, R134 to R136). -/

namespace Sys2Proof.Machine

open Sys2Proof

/-! ### The choice -/

section
variable {s : State} {t : Trigger} {best : Option (Trigger × Nat)}

theorem betterRun_none (h : runAt s t = none) : betterRun s best t = best := by
  unfold betterRun
  rw [h]

variable {r : Run} (h : runAt s t = some r)
include h

theorem betterRun_unable (k : waits r = false) : betterRun s best t = best := by
  unfold betterRun
  simp only [h, k, Bool.false_eq_true, if_false]

theorem betterRun_first (k : waits r = true) : betterRun s none t = some (t, r.priority) := by
  unfold betterRun
  simp only [h, k, if_true]

theorem betterRun_above (k : waits r = true) {b : Trigger × Nat} (high : b.2 < r.priority) :
    betterRun s (some b) t = some (t, r.priority) := by
  unfold betterRun
  simp only [h, k, if_true, if_pos high]

theorem betterRun_below {b : Trigger × Nat} (low : r.priority ≤ b.2) : betterRun s (some b) t = some b := by
  unfold betterRun
  simp only [h, if_neg (Nat.not_lt.2 low), ite_self]

end

/-- The runs before the best one leave a lower one, or none. -/
theorem foldl_betterRun_low {s : State} {p : Nat} {l : List Trigger}
    (low : ∀ v ∈ l, ∀ x, runAt s v = some x → waits x = true → x.priority < p) {best : Option (Trigger × Nat)}
    (h : ∀ b, best = some b → b.2 < p) : ∀ b, l.foldl (betterRun s) best = some b → b.2 < p := by
  induction l generalizing best with
  | nil => exact h
  | cons v l ih =>
    refine ih (fun w m => low w (.tail _ m)) fun b e => ?_
    cases run : runAt s v with
    | none => exact h b (by rwa [betterRun_none run] at e)
    | some x =>
      cases able : waits x with
      | false => exact h b (by rwa [betterRun_unable run able] at e)
      | true =>
        have below := low v (.head _) x run able
        cases best with
        | none =>
          rw [betterRun_first run able] at e
          cases e
          exact below
        | some c =>
          by_cases high : c.2 < x.priority
          · rw [betterRun_above run able high] at e
            cases e
            exact below
          · rw [betterRun_below run (Nat.not_lt.1 high)] at e
            exact h b e

/-- The runs after the best one do not replace it. -/
theorem foldl_betterRun_stays {s : State} {b : Trigger × Nat} {l : List Trigger}
    (low : ∀ v ∈ l, ∀ x, runAt s v = some x → waits x = true → x.priority ≤ b.2) :
    l.foldl (betterRun s) (some b) = some b := by
  induction l with
  | nil => rfl
  | cons v l ih =>
    have still : betterRun s (some b) v = some b := by
      cases run : runAt s v with
      | none => exact betterRun_none run
      | some x =>
        cases able : waits x with
        | false => exact betterRun_unable run able
        | true => exact betterRun_below run (low v (.head _) x run able)
    rw [List.foldl_cons, still]
    exact ih fun w m => low w (.tail _ m)

theorem chosenRun_best {s : State} {u : Trigger} {r : Run} (run : runAt s u = some r) (able : waits r = true)
    (best : ∀ v x, runAt s v = some x → waits x = true →
      x.priority < r.priority ∨ (x.priority = r.priority ∧ (triggerIndex u).val ≤ (triggerIndex v).val)) :
    chosenRun s = some u := by
  obtain ⟨pre, post, split⟩ := List.append_of_mem (mem_allTriggers u)
  have before : ∀ v ∈ pre, ∀ x, runAt s v = some x → waits x = true → x.priority < r.priority := fun v m x e w => by
    have order := allTriggers_ordered
    rw [split, List.pairwise_append] at order
    obtain ⟨_, _, lower⟩ := order
    obtain low | ⟨_, above⟩ := best v x e w
    · exact low
    · exact absurd (lower v m u (.head _)) (Nat.not_lt.2 above)
  have lower := foldl_betterRun_low before (best := none) nofun
  have taken : betterRun s (pre.foldl (betterRun s) none) u = some (u, r.priority) := by
    cases e : pre.foldl (betterRun s) none with
    | none => exact betterRun_first run able
    | some b => exact betterRun_above run able (lower b e)
  rw [chosenRun, split, List.foldl_append, List.foldl_cons, taken, foldl_betterRun_stays]
  · rfl
  · intro v _ x e w
    obtain low | ⟨same, _⟩ := best v x e w
    · exact Nat.le_of_lt low
    · exact Nat.le_of_eq same

theorem engineChoice_activates {s : State} {u : Trigger} (idle : activeTrigger s = none) (chosen : chosenRun s = some u) :
    engineChoice s = finishEvent (activate u s) := by
  unfold engineChoice
  simp only [idle, chosen]
  rfl

/-! ### A run becomes ACTIVE -/

section
variable {u : Trigger} {r : Run} {s : State} {st : Step} (run : runAt s u = some r) (begun : r.step = some st)
include run begun

theorem activate_stepped : activate u s =
    resume u { r with state := .active } st (setRun u (some { r with state := .active }) s) := by
  unfold activate
  simp only [run, begun]

omit run begun

section
variable {y : Run}

theorem resume_parks {f : FaultKind × Option Aperture} (h : firstFault y = some f) : resume u y st s = park u y f s := by
  unfold resume
  rw [h]

variable (h : firstFault y = none)
include h

theorem resume_pause (k : st.action = .pause) : resume u y st s =
    setRun u (some { y with pause := y.pause.map fun p => { p with since := some s.now } }) s := by
  unfold resume
  simp only [h, k]

theorem resume_check (k : st.action = .checkInside) : resume u y st s = s := by
  unfold resume
  simp only [h, k]

theorem resume_issues (k : st.action ≠ .pause) (j : st.action ≠ .checkInside) :
    resume u y st s = if noneLeft y then s else issueStep u st s := by
  unfold resume
  rw [h]
  dsimp only
  split
  · next e => exact absurd e k
  · next e => exact absurd e j
  · rfl

theorem resume_nothing (k : st.action ≠ .pause) (j : st.action ≠ .checkInside) (all : ∀ a, y.remaining.get a = false) :
    resume u y st s = s := (resume_issues h k j).trans (if_pos ((noneLeft_iff y).2 all))

theorem resume_something (k : st.action ≠ .pause) (j : st.action ≠ .checkInside) {a : Aperture}
    (left : y.remaining.get a = true) : resume u y st s = issueStep u st s :=
  (resume_issues h k j).trans (if_neg fun all => by rw [(noneLeft_iff y).1 all a] at left; cases left)

end

end

/-! ### A run begins its step -/

/-- A run counted into its next step. -/
def counted (r : Run) : Run :=
  { r with
    steps := r.steps + 1, outcomes := Five.all none, remaining := Five.all false, pause := none
    searchWait := false, searchResult := none }

section
variable {u : Trigger} {r : Run} {s : State}

theorem engineMove_begins (holder : activeTrigger s = some u) (run : runAt s u = some r) (unstepped : r.step = none) :
    engineMove s = some (beginStep u r s) := by
  unfold engineMove
  simp only [holder, run, unstepped]

theorem beginStep_runaway (long : 64 ≤ r.steps) : beginStep u r s = endRun u r .runaway s := if_pos long

section
variable (short : r.steps < 64)
include short

theorem beginStep_damaged (h : stepAt s r.stepIndex = .damaged) :
    beginStep u r s = damagedStep u (counted r) (setRun u (some (counted r)) s) := by
  refine (if_neg (Nat.not_le.2 short)).trans ?_
  rw [stepAt] at h
  dsimp only
  rw [h]
  rfl

variable {st : Step} (h : stepAt s r.stepIndex = .step st)
include h

/-- What a run does with the step it reads. -/
theorem beginStep_reads : beginStep u r s =
    match st.action with
    | .empty => endRun u { counted r with step := some st } .completed (setRun u (some { counted r with step := some st }) s)
    | .pause => setRun u (some { counted r with
        step := some st
        pause := some { left := ms ((st.argument.getD 0) * 10), since := some s.now } }) s
    | .checkInside => requestSearch .interior .insideCheck [.run u r.serial]
        (setRun u (some { counted r with step := some st, searchWait := true }) s)
    | _ =>
      if roleRank r.role < roleRank st.minRole then
        setRun u (some (denyRole { counted r with step := some st, remaining := resolvedSet st r.origin })) s
      else issueStep u st
        (setRun u (some { counted r with step := some st, remaining := resolvedSet st r.origin }) s) := by
  refine (if_neg (Nat.not_le.2 short)).trans ?_
  rw [stepAt] at h
  dsimp only
  rw [h]
  dsimp only
  cases st.action <;> rfl

theorem beginStep_empty (k : st.action = .empty) : beginStep u r s =
    endRun u { counted r with step := some st } .completed (setRun u (some { counted r with step := some st }) s) := by
  rw [beginStep_reads short h, k]

theorem beginStep_pause (k : st.action = .pause) {n : Nat} (arg : st.argument = some n) : beginStep u r s =
    setRun u (some { counted r with step := some st, pause := some { left := ms (n * 10), since := some s.now } }) s := by
  rw [beginStep_reads short h, k, arg]
  rfl

theorem beginStep_check (k : st.action = .checkInside) : beginStep u r s =
    requestSearch .interior .insideCheck [.run u r.serial]
      (setRun u (some { counted r with step := some st, searchWait := true }) s) := by
  rw [beginStep_reads short h, k]

section
variable (a : st.action ≠ .empty) (b : st.action ≠ .pause) (c : st.action ≠ .checkInside)
include a b c

theorem beginStep_apertures : beginStep u r s =
    if roleRank r.role < roleRank st.minRole then
      setRun u (some (denyRole { counted r with step := some st, remaining := resolvedSet st r.origin })) s
    else issueStep u st (setRun u (some { counted r with step := some st, remaining := resolvedSet st r.origin }) s) := by
  rw [beginStep_reads short h]
  split
  · next e => exact absurd e a
  · next e => exact absurd e b
  · next e => exact absurd e c
  · rfl

end

end

theorem damagedStep_parks (other : u ≠ .crash) : damagedStep u r s = park u r (.damagedStep, none) s := if_neg other

theorem damagedStep_crash : damagedStep .crash r s =
    endRun .crash { r with fault := r.fault.or (some (.damagedStep, none)) } .completed (raise .chainFault s) := if_pos rfl

theorem resolvedSet_iff (st : Step) (o a : Aperture) : (resolvedSet st o).get a = true ↔
    (st.apertures.getLsbD (apertureCode a) = true ∨ (st.apertures.getLsbD 5 = true ∧ o = a)) ∧
      ¬(a = .tg ∧ (st.action = .windowClose ∨ st.action = .windowOpen ∨ st.action = .windowTo)) := by
  cases a <;> simp [resolvedSet, Five.get, apertureCode]

end

/-! ### Outcomes given to the apertures that remain -/

/-- An outcome given to an aperture that remains and is chosen. -/
def answer (c : Aperture → Bool) (o : OpOutcome) (r : Run) (a : Aperture) : Run :=
  if c a && r.remaining.get a then giveOutcome r a o else r

section
variable {c : Aperture → Bool} {o : OpOutcome}

theorem answer_kept (r : Run) (b : Aperture) : answer c o r b =
    { r with remaining := (answer c o r b).remaining, outcomes := (answer c o r b).outcomes } := by
  unfold answer
  split <;> rfl

theorem foldl_answer_kept (l : List Aperture) (r : Run) : l.foldl (answer c o) r =
    { r with remaining := (l.foldl (answer c o) r).remaining, outcomes := (l.foldl (answer c o) r).outcomes } := by
  induction l generalizing r with
  | nil => rfl
  | cons b l ih =>
    rw [List.foldl_cons]
    refine (ih _).trans ?_
    rw [answer_kept r b]

theorem answer_get {a b : Aperture} (h : b ≠ a) (r : Run) :
    (answer c o r b).remaining.get a = r.remaining.get a ∧ (answer c o r b).outcomes.get a = r.outcomes.get a := by
  unfold answer
  split
  · exact ⟨(Five.get_set ..).trans (if_neg h), (Five.get_set ..).trans (if_neg h)⟩
  · exact ⟨rfl, rfl⟩

theorem answer_other {r : Run} {a : Aperture} (h : r.remaining.get a = false ∨ c a = false) : answer c o r a = r := by
  obtain h | h := h <;> simp [answer, h]

theorem answer_chosen {r : Run} {a : Aperture} (h : r.remaining.get a = true) (k : c a = true) :
    answer c o r a = giveOutcome r a o := by
  simp [answer, h, k]

theorem foldl_answer_other {a : Aperture} (l : List Aperture) {r : Run} (h : r.remaining.get a = false ∨ c a = false) :
    (l.foldl (answer c o) r).remaining.get a = r.remaining.get a ∧
      (l.foldl (answer c o) r).outcomes.get a = r.outcomes.get a := by
  induction l generalizing r with
  | nil => exact ⟨rfl, rfl⟩
  | cons b l ih =>
    by_cases same : b = a
    · subst same
      rw [List.foldl_cons, answer_other h]
      exact ih h
    · obtain ⟨left, outcome⟩ := answer_get (c := c) (o := o) same r
      rw [← left, ← outcome]
      exact ih (h.imp_left left.trans)

theorem foldl_answer_chosen {a : Aperture} {l : List Aperture} (mem : a ∈ l) {r : Run} (h : r.remaining.get a = true)
    (k : c a = true) : (l.foldl (answer c o) r).remaining.get a = false ∧
      (l.foldl (answer c o) r).outcomes.get a = some o := by
  induction l generalizing r with
  | nil => cases mem
  | cons b l ih =>
    rw [List.foldl_cons]
    by_cases same : b = a
    · subst same
      have left : (answer c o r b).remaining.get b = false := by
        rw [answer_chosen h k]
        exact Five.get_set_same _ _ _
      have outcome : (answer c o r b).outcomes.get b = some o := by
        rw [answer_chosen h k]
        exact Five.get_set_same _ _ _
      obtain ⟨kept, stays⟩ := foldl_answer_other (c := c) (o := o) l (.inl left)
      exact ⟨kept.trans left, stays.trans outcome⟩
    · exact ih ((List.mem_cons.1 mem).resolve_left (Ne.symm same)) ((answer_get same r).1.trans h)

end

theorem denyRole_eq (r : Run) : denyRole r = allApertures.foldl (answer (fun _ => true) (.denied .role)) r := rfl

/-- A step denied for its run's role: every aperture has the outcome, and none remains. -/
theorem denyRole_denies (r : Run) (clear : r.outcomes = Five.all none) (a : Aperture) :
    (denyRole r).remaining.get a = false ∧
      (denyRole r).outcomes.get a = if r.remaining.get a then some (.denied .role) else none := by
  rw [denyRole_eq]
  cases left : r.remaining.get a with
  | true => exact foldl_answer_chosen (mem_allApertures a) left rfl
  | false =>
    obtain ⟨kept, stays⟩ := foldl_answer_other (c := fun _ => true) (o := .denied .role) allApertures (.inl left)
    rw [kept, stays, clear]
    exact ⟨left, by cases a <;> rfl⟩

theorem denyRole_same (r : Run) : denyRole r =
    { r with remaining := (denyRole r).remaining, outcomes := (denyRole r).outcomes } := by
  rw [denyRole_eq]
  exact foldl_answer_kept allApertures r

/-! ### The skip-met test (08, R135) -/

section
variable {u : Trigger} {st : Step} {s : State}

theorem skipMet_off (h : hasSkipMet st = false) : skipMet u st s = s := if_neg (by simp [h])

/-- One aperture of the skip-met test. -/
def skipOne (u : Trigger) (st : Step) (s x : State) (a : Aperture) : State :=
  if stepMet s st a then engineOutcome u a .met x else x

theorem skipMet_on (h : hasSkipMet st = true) : skipMet u st s = allApertures.foldl (skipOne u st s) s := if_pos h

theorem engineOutcome_eq {a : Aperture} {o : OpOutcome} {r : Run} {x : State} (h : runAt x u = some r) :
    engineOutcome u a o x = if r.remaining.get a then setRun u (some (giveOutcome r a o)) x else x := by
  unfold engineOutcome
  rw [h]

theorem skipOne_leaves {r : Run} {x : State} (h : runAt x u = some r) (a : Aperture) :
    runAt (skipOne u st s x a) u = some (answer (stepMet s st) .met r a) ∧
      (∀ v, v ≠ u → runAt (skipOne u st s x a) v = runAt x v) ∧ (skipOne u st s x a).latches = x.latches ∧
      (skipOne u st s x a).windows = x.windows := by
  unfold skipOne
  split
  · next met =>
    rw [engineOutcome_eq h]
    split
    · next left =>
      rw [answer_chosen left met]
      exact ⟨runAt_setRun_same _ _ _, fun v other => runAt_setRun_other other, rfl, rfl⟩
    · next left =>
      rw [answer_other (.inl (Bool.eq_false_iff.2 left))]
      exact ⟨h, fun _ _ => rfl, rfl, rfl⟩
  · next unmet =>
    rw [answer_other (.inr (Bool.eq_false_iff.2 unmet))]
    exact ⟨h, fun _ _ => rfl, rfl, rfl⟩

theorem foldl_skipOne_leaves (l : List Aperture) {r : Run} {x : State} (h : runAt x u = some r) :
    runAt (l.foldl (skipOne u st s) x) u = some (l.foldl (answer (stepMet s st) .met) r) ∧
      (∀ v, v ≠ u → runAt (l.foldl (skipOne u st s) x) v = runAt x v) ∧
      (l.foldl (skipOne u st s) x).latches = x.latches ∧ (l.foldl (skipOne u st s) x).windows = x.windows := by
  induction l generalizing r x with
  | nil => exact ⟨h, fun _ _ => rfl, rfl, rfl⟩
  | cons a l ih =>
    obtain ⟨own, others, latches, windows⟩ := skipOne_leaves (st := st) (s := s) h a
    obtain ⟨own', others', latches', windows'⟩ := ih own
    exact ⟨own', fun v other => (others' v other).trans (others v other), latches'.trans latches, windows'.trans windows⟩

end

end Sys2Proof.Machine

/-! A step issued to its apertures (08, R135, R136). -/

namespace Sys2Proof.Machine

open Sys2Proof

section
variable {u : Trigger} {g : Tag} {st : Step} {a : Aperture} {s : State} {r : Run}

theorem issueStep_eq (run : runAt s u = some r) : issueStep u st s = allApertures.foldl
    (issueAperture u { serial := r.serial, count := r.steps, skipMet := hasSkipMet st } st) (skipMet u st s) := by
  unfold issueStep
  rw [run]

/-- What the skip-met test leaves of the run and of the drives. -/
theorem skipMet_leaves (run : runAt s u = some r) (h : hasSkipMet st = true) : ∃ w, runAt (skipMet u st s) u = some w ∧
    (∀ v, v ≠ u → runAt (skipMet u st s) v = runAt s v) ∧ (skipMet u st s).latches = s.latches ∧
    (skipMet u st s).windows = s.windows ∧ w.serial = r.serial ∧ w.steps = r.steps ∧ w.state = r.state ∧
    ∀ a, (r.remaining.get a = true → stepMet s st a = true → w.remaining.get a = false ∧ w.outcomes.get a = some .met) ∧
      (r.remaining.get a = false ∨ stepMet s st a = false →
        w.remaining.get a = r.remaining.get a ∧ w.outcomes.get a = r.outcomes.get a) := by
  obtain ⟨own, others, latches, windows⟩ := foldl_skipOne_leaves (st := st) (s := s) allApertures run
  have kept := foldl_answer_kept (c := stepMet s st) (o := .met) allApertures r
  rw [skipMet_on h]
  refine ⟨_, own, others, latches, windows, ?_, ?_, ?_, fun a => ⟨fun left met => ?_, foldl_answer_other allApertures⟩⟩
  · rw [kept]
  · rw [kept]
  · rw [kept]
  · exact foldl_answer_chosen (mem_allApertures a) left met

/-! ### One aperture -/

theorem issueAperture_done (run : runAt s u = some r) (done : r.remaining.get a = false) :
    issueAperture u g st s a = s := by
  unfold issueAperture
  rw [run]
  exact if_pos done

theorem issueAperture_left (run : runAt s u = some r) (left : r.remaining.get a = true) : issueAperture u g st s a =
    let y := deliver (discardOwn u g a (issueOne u g st a s))
    if hasNoWait st then engineOutcome u a .issued y else y := by
  unfold issueAperture
  rw [run]
  exact if_neg (by simp [left])

/-- The run stands after its aperture is issued and the outcomes are delivered. -/
theorem runAt_issued (run : runAt s u = some r) :
    ∃ w, runAt (deliver (discardOwn u g a (issueOne u g st a s))) u = some w := by
  have same : SameRuns s (discardOwn u g a (issueOne u g st a s)) := .of_engine (issueOne_engine u g st a s)
  obtain ⟨w, e, _⟩ := (same.trans (deliver_sameRuns _)).run run
  exact ⟨w, e⟩

section
variable {w : Run} (run : runAt s u = some r) (left : r.remaining.get a = true)
  (issued : runAt (deliver (discardOwn u g a (issueOne u g st a s))) u = some w)
include run left issued

theorem issueAperture_waits (h : hasNoWait st = false ∨ w.remaining.get a = false) :
    issueAperture u g st s a = deliver (discardOwn u g a (issueOne u g st a s)) := by
  refine (issueAperture_left run left).trans ?_
  dsimp only
  rw [engineOutcome_eq issued]
  obtain waits | done := h
  · simp [waits]
  · simp [done]

theorem issueAperture_goes (h : hasNoWait st = true) (k : w.remaining.get a = true) : issueAperture u g st s a =
    setRun u (some (giveOutcome w a .issued)) (deliver (discardOwn u g a (issueOne u g st a s))) := by
  refine (issueAperture_left run left).trans ?_
  dsimp only
  rw [engineOutcome_eq issued, if_pos h, if_pos k]

end

/-! ### The request of one aperture -/

section
variable {x : HeldTarget}

theorem issueLatch_asks (h : chainDeferred s a x = false) :
    issueLatch u g a x s = (requestLatch a x (.chain u) [g] s).1 := if_neg (by simp [h])

theorem issueLatch_defers (h : chainDeferred s a x = true) : issueLatch u g a x s =
    { s with latches := { s.latches with deferred := s.latches.deferred ++ [.chain a x u g] } } := if_pos h

theorem chainDeferred_latch (h : actuatorOf x = .latch) : chainDeferred s a x = !pairQualified s a := by
  unfold chainDeferred
  rw [h]

theorem chainDeferred_child (h : actuatorOf x = .child) :
    chainDeferred s a x = (apertureRear a).any fun e => !childQualified s e := by
  unfold chainDeferred
  rw [h]

theorem chainDeferred_release : chainDeferred s a .release = (decide (a = .tg) && !pairQualified s a) := rfl

/-- A chain asks a latch whose state is qualified; otherwise its request is deferred. -/
theorem issueLatch_latch (h : actuatorOf x = .latch) :
    (pairQualified s a = true → issueLatch u g a x s = (requestLatch a x (.chain u) [g] s).1) ∧
    (pairQualified s a = false → issueLatch u g a x s =
      { s with latches := { s.latches with deferred := s.latches.deferred ++ [.chain a x u g] } }) := by
  refine ⟨fun k => issueLatch_asks ?_, fun k => issueLatch_defers ?_⟩ <;> rw [chainDeferred_latch h, k] <;> rfl

theorem issueLatch_child (h : actuatorOf x = .child) :
    ((∀ e, apertureRear a = some e → childQualified s e = true) →
      issueLatch u g a x s = (requestLatch a x (.chain u) [g] s).1) ∧
    (∀ e, apertureRear a = some e → childQualified s e = false → issueLatch u g a x s =
      { s with latches := { s.latches with deferred := s.latches.deferred ++ [.chain a x u g] } }) := by
  refine ⟨fun k => issueLatch_asks ?_, fun e rear k => issueLatch_defers ?_⟩
  · rw [chainDeferred_child h]
    cases rear : apertureRear a with
    | none => rfl
    | some e => rw [Option.any_some, k e rear]; rfl
  · rw [chainDeferred_child h, rear, Option.any_some, k]
    rfl

theorem issueLatch_release :
    (a ≠ .tg → issueLatch u g a .release s = (requestLatch a .release (.chain u) [g] s).1) ∧
    (a = .tg → (pairQualified s a = true → issueLatch u g a .release s = (requestLatch a .release (.chain u) [g] s).1) ∧
      (pairQualified s a = false → issueLatch u g a .release s =
        { s with latches := { s.latches with deferred := s.latches.deferred ++ [.chain a .release u g] } })) := by
  refine ⟨fun other => issueLatch_asks ?_, fun own => ⟨fun k => issueLatch_asks ?_, fun k => issueLatch_defers ?_⟩⟩
  · rw [chainDeferred_release, decide_eq_false other, Bool.false_and]
  · rw [chainDeferred_release, k, Bool.not_true, Bool.and_false]
  · rw [chainDeferred_release, k, decide_eq_true own]
    rfl

end

section
variable {d : Door} (door : apertureDoor a = some d)
include door

theorem issueWindow_close (k : st.action = .windowClose) :
    issueWindow u g a st s = (requestMovement d (plainMove .closing .toEnd (.chain u) [g]) s).1 := by
  unfold issueWindow
  simp only [door, k]

theorem issueWindow_open (k : st.action = .windowOpen) :
    issueWindow u g a st s = (requestMovement d (plainMove .opening .toEnd (.chain u) [g]) s).1 := by
  unfold issueWindow
  simp only [door, k]

variable (k : st.action = .windowTo)
include k

theorem issueWindow_unnormalized (h : (windowAt s d).record.travel = none) : issueWindow u g a st s =
    { s with mail := s.mail ++ [{ trigger := u, serial := g.serial, count := g.count, aperture := a,
                                  outcome := .denied .unnormalized }] } := by
  unfold issueWindow
  simp only [door, k, h]
  rfl

theorem issueWindow_position {p l : Nat} (arg : st.argument = some p) (h : (windowAt s d).record.travel = some l) :
    issueWindow u g a st s =
      (requestMovement d (positionMove (windowAt s d) (p * l / 100) (.chain u) [g]) s).1 := by
  unfold issueWindow
  simp only [door, k, h, arg]
  rfl

end

theorem issueOne_eq : issueOne u g st a s =
    match st.action with
    | .lock => issueLatch u g a .locked s
    | .unlock => issueLatch u g a .unlocked s
    | .deadlock => issueLatch u g a .deadlocked s
    | .childOn => issueLatch u g a .on s
    | .childOff => issueLatch u g a .off s
    | .tailgateRelease => issueLatch u g a .release s
    | .windowClose | .windowOpen | .windowTo => issueWindow u g a st s
    | .pause | .checkInside | .empty => s := by
  unfold issueOne
  cases st.action <;> rfl

end

/-- Settles O54. -/
theorem theEngineChoosesByPriorityThenIndex : Obligations.TheEngineChoosesByPriorityThenIndex := by
  refine ⟨fun u r s power idle run able best => ?choice, fun u r s run => ?active, fun u r s holder run unstepped => ?begins,
    fun u r st s run => ?issues⟩
  case choice =>
    exact (event_running engineChoice power).trans (congrArg _ (engineChoice_activates idle (chosenRun_best run able best)))
  case active =>
    intro y s1
    refine ⟨activate_unstepped run, fun st begun => ?_⟩
    have resumes : activate u s = resume u y st s1 := activate_stepped run begun
    have fault : firstFault y = firstFault r := rfl
    refine ⟨fun f first => resumes.trans (resume_parks (fault.trans first)), fun clean => ?_⟩
    have clean : firstFault y = none := fault.trans clean
    exact ⟨fun k => resumes.trans (resume_pause clean k), fun k => resumes.trans (resume_check clean k),
      fun k j => ⟨fun all => resumes.trans (resume_nothing clean k j all),
        fun a left => resumes.trans (resume_something clean k j left)⟩⟩
  case begins =>
    intro y
    have move := engineMove_begins holder run unstepped
    refine ⟨fun long => by rw [move, beginStep_runaway long], fun short => ⟨fun damaged => ⟨fun other => ?_, fun crash => ?_⟩,
      fun st stands => ?_⟩⟩
    · obtain ⟨raises, own, others, _⟩ := park_leaves u y (.damagedStep, none) (setRun u (some y) s)
      refine ⟨_, move.trans (congrArg _ ((beginStep_damaged short damaged).trans (damagedStep_parks other))), raises, own,
        fun v apart => (others v apart).trans (runAt_setRun_other apart)⟩
    · subst crash
      exact move.trans (congrArg _ ((beginStep_damaged short damaged).trans damagedStep_crash))
    · intro z set
      refine ⟨fun k => move.trans (congrArg _ (beginStep_empty short stands k)),
        fun n k arg => move.trans (congrArg _ (beginStep_pause short stands k arg)),
        fun k => move.trans (congrArg _ (beginStep_check short stands k)), fun a b c => ?_⟩
      have issues := move.trans (congrArg _ (beginStep_apertures short stands a b c))
      refine ⟨resolvedSet_iff st r.origin, fun low => ?_, fun high => ?_⟩
      · rw [if_pos low] at issues
        have kept := denyRole_same { counted r with step := some st, remaining := resolvedSet st r.origin }
        refine ⟨_, issues, ?_, ?_, ?_, denyRole_denies _ rfl⟩ <;> rw [kept] <;> rfl
      · rw [if_neg (Nat.not_lt.2 high)] at issues
        exact issues
  case issues =>
    refine ⟨issueStep_eq run, skipMet_off, skipMet_leaves run, fun a g => issueAperture_done run, fun a g left => ?_, fun a g => ?_⟩
    · intro x own y
      have same : deliver (discardOwn u g a x) = y := by rw [discardOwn_eq]
      obtain ⟨w, issued⟩ := runAt_issued (g := g) (st := st) (a := a) run
      rw [← same]
      exact ⟨w, issued, issueAperture_waits run left issued, issueAperture_goes run left issued⟩
    · intro issues unnormalized asked later latch child
      have one := issueOne_eq (u := u) (g := g) (st := st) (a := a) (s := s)
      have latches : ∀ x, actuatorOf x = .latch → issueOne u g st a s = issueLatch u g a x s → latch x := fun x act e => by
        obtain ⟨asks, defers⟩ := issueLatch_latch (u := u) (g := g) (a := a) (s := s) act
        exact ⟨fun k => e.trans (asks k), fun k => e.trans (defers k)⟩
      have children : ∀ x, actuatorOf x = .child → issueOne u g st a s = issueLatch u g a x s → child x := fun x act e => by
        obtain ⟨asks, defers⟩ := issueLatch_child (u := u) (g := g) (a := a) (s := s) act
        exact ⟨fun k => e.trans (asks k), fun d rear k => e.trans (defers d rear k)⟩
      refine ⟨fun k => latches _ rfl (by rw [one, k]), fun k => latches _ rfl (by rw [one, k]),
        fun k => latches _ rfl (by rw [one, k]), fun k => children _ rfl (by rw [one, k]),
        fun k => children _ rfl (by rw [one, k]), fun k => ?_, fun d door => ⟨fun k => ?_, fun k => ?_, fun p k arg => ?_⟩⟩
      · obtain ⟨asks, boot⟩ := issueLatch_release (u := u) (g := g) (a := a) (s := s)
        have one : issueOne u g st a s = issueLatch u g a .release s := by rw [one, k]
        exact ⟨fun other => one.trans (asks other), fun own => ⟨fun q => one.trans ((boot own).1 q), fun q => one.trans ((boot own).2 q)⟩⟩
      · have one : issueOne u g st a s = issueWindow u g a st s := by rw [one, k]
        exact one.trans (issueWindow_close door k)
      · have one : issueOne u g st a s = issueWindow u g a st s := by rw [one, k]
        exact one.trans (issueWindow_open door k)
      · have one : issueOne u g st a s = issueWindow u g a st s := by rw [one, k]
        exact ⟨fun h => one.trans (issueWindow_unnormalized door k h), fun l h => one.trans (issueWindow_position door k arg h)⟩

end Sys2Proof.Machine

/-! The store's writes: offered, started, completed (01, R14; 09, R166 to R171). -/

namespace Sys2Proof.Machine

open Sys2Proof

/-! ### A write offered -/

section
variable {id : RecordId} {s : State} (c : Content) (w : List WriteWaiter)

/-- A queued write of the record takes the content and the waiters offered. -/
def merged (id : RecordId) (c : Content) (w : List WriteWaiter) (e : WriteEntry) : WriteEntry :=
  if e.id = id then { e with content := c, waiters := e.waiters ++ w } else e

theorem merged_id (e : WriteEntry) : (merged id c w e).id = e.id := by
  unfold merged
  split <;> rfl

theorem offer_merges (h : ∃ e ∈ s.store.queue, e.id = id) :
    (offer id c w s).store.queue = s.store.queue.map (merged id c w) :=
  if_pos (by simpa only [List.any_eq_true, decide_eq_true_eq] using h)

theorem offer_appends (h : ∀ e ∈ s.store.queue, e.id ≠ id) :
    (offer id c w s).store.queue = s.store.queue ++ [{ id, content := c, waiters := w }] :=
  if_neg (by simpa only [List.any_eq_true, decide_eq_true_eq, not_exists, not_and] using h)

theorem offer_mergedIds (h : ∃ e ∈ s.store.queue, e.id = id) :
    (offer id c w s).store.queue.map WriteEntry.id = s.store.queue.map WriteEntry.id := by
  rw [offer_merges c w h, List.map_map]
  exact List.map_congr_left fun e _ => merged_id c w e

theorem offer_merged {e : WriteEntry} (mem : e ∈ s.store.queue) (own : e.id = id) :
    { id, content := c, waiters := e.waiters ++ w } ∈ (offer id c w s).store.queue := by
  rw [offer_merges c w ⟨e, mem, own⟩]
  refine List.mem_map.2 ⟨e, mem, ?_⟩
  rw [merged, if_pos own, own]

/-- No record has two writes queued. -/
theorem offer_nodup (h : (s.store.queue.map WriteEntry.id).Nodup) :
    ((offer id c w s).store.queue.map WriteEntry.id).Nodup := by
  by_cases k : ∃ e ∈ s.store.queue, e.id = id
  · rwa [offer_mergedIds c w k]
  · have new : ∀ e ∈ s.store.queue, e.id ≠ id := fun e mem own => k ⟨e, mem, own⟩
    rw [offer_appends c w new, List.map_append]
    refine List.nodup_append.2 ⟨h, List.pairwise_singleton _ _, fun x mem y own same => ?_⟩
    obtain ⟨e, here, rfl⟩ := List.mem_map.1 mem
    exact new e here (same.trans (List.mem_singleton.1 own))

theorem offer_repair {p : RecordId × Content} (h : p ∈ (offer id c w s).store.repair) : p.1 ≠ id :=
  of_decide_eq_true (List.mem_filter.1 h).2

end

/-! ### A write started -/

section
variable {s : State} (scan : s.store.scanDone = true) (free : s.store.inFlight = none)
include scan free

theorem writeStart_queued {e : WriteEntry} {rest : List WriteEntry} (h : s.store.queue = e :: rest) :
    writeStart s = { s with store := { s.store with queue := rest, inFlight := some e } } := by
  unfold writeStart
  rw [if_pos (by rw [scan, free]; rfl), h]

theorem writeStart_repair {id : RecordId} {c : Content} {rest : List (RecordId × Content)} (h : s.store.queue = [])
    (k : s.store.repair = (id, c) :: rest) : writeStart s = { s with store := { s.store with
      repair := rest, inFlight := some { id, content := c, waiters := [] } } } := by
  unfold writeStart
  rw [if_pos (by rw [scan, free]; rfl), h, k]

end

/-! ### A write completed -/

/-- The state with the write in flight stored. -/
def stored (e : WriteEntry) (s : State) : State :=
  { s with store := { s.store with flash := writeFlash e.id e.content s.store.flash, inFlight := none } }

section
variable {e : WriteEntry} {s : State}

theorem writeComplete_eq (h : s.store.inFlight = some e) :
    writeComplete s = finishEvent (e.waiters.foldl tellWaiter (stored e s)) := by
  unfold writeComplete
  rw [h]
  rfl

theorem exec_storeWriteComplete (power : s.power = .running) (h : s.store.inFlight = some e) :
    exec .storeWriteComplete s = .next (finishEvent (e.waiters.foldl tellWaiter (stored e s))) :=
  (event_running writeComplete power).trans (congrArg _ (writeComplete_eq h))

/-- A write whose one waiter leaves the engine settled. -/
theorem exec_storeWriteComplete_one (power : s.power = .running) (h : s.store.inFlight = some e) {w : WriteWaiter}
    (one : e.waiters = [w]) (rests : Settled (tellWaiter (stored e s) w)) :
    exec .storeWriteComplete s = .next (tellWaiter (stored e s) w) := by
  rw [exec_storeWriteComplete power h, one, List.foldl_cons, List.foldl_nil, finishEvent_settled rests]

theorem exec_storeWriteComplete_none (power : s.power = .running) (rests : Settled s) (h : s.store.inFlight = some e)
    (alone : e.waiters = []) : exec .storeWriteComplete s = .next (stored e s) := by
  rw [exec_storeWriteComplete power h, alone, List.foldl_nil, finishEvent_settled (s := stored e s) (rests.of_runs rests.1 rfl)]

end

/-! ### The default records written in turn (06, R125) -/

section
variable {n : Nat} {s : State}

theorem persistDefault_offers {p : RecordId × Content} (h : defaultRecord n = some p) : persistDefault n s =
    offer p.1 p.2 [.chainsDefault] { s with engine := { s.engine with defaulting := some n } } := by
  unfold persistDefault
  rw [h]

theorem persistDefault_ends (h : defaultRecord n = none) :
    persistDefault n s = reply .ok [] { s with engine := { s.engine with defaulting := none } } := by
  unfold persistDefault
  rw [h]

theorem persistDefault_queued {p : RecordId × Content} (h : defaultRecord n = some p) :
    Queued (persistDefault n s) p.1 p.2 .chainsDefault := by
  rw [persistDefault_offers h]
  exact offer_queued _ _ _ _ (List.mem_singleton.2 rfl)

theorem Settled.persistDefault (h : Settled s) (n : Nat) : Settled (persistDefault n s) := by
  cases e : defaultRecord n with
  | none =>
    rw [persistDefault_ends e]
    exact h.of_runs h.1 rfl
  | some p =>
    rw [persistDefault_offers e]
    exact h.of_runs h.1 rfl

theorem tellWaiter_chainsDefault (h : s.engine.defaulting = some n) :
    tellWaiter s .chainsDefault = persistDefault (n + 1) s := by
  unfold tellWaiter
  simp only [h]

end

/-! ### A frame that waits at the match for a key change (02, R22) -/

section
variable {i : Fin 8} {s : State}

theorem matchResumed_none (h : ∀ f, s.entry.processing ≠ some { stamped := f, stage := .atMatch i }) :
    matchResumed i s = s := by
  unfold matchResumed
  split
  · next f j e =>
    refine if_neg fun same => ?_
    subst same
    exact h f e
  · rfl

theorem matchResumed_judges {f : StampedFrame} (h : s.entry.processing = some { stamped := f, stage := .atMatch i }) :
    matchResumed i s = judge f s := by
  unfold matchResumed
  rw [h]
  exact if_pos rfl

theorem reject_eq (f : StampedFrame) (r : RejectReason) : reject i f r s = setProcessing none (raise .keyReject
    (writeAccess i (accessOfFob f.frame.command) (.rejected r) (setKey i { keyAt s i with
      rejects := min 255 ((keyAt s i).rejects + 1)
      resync := if r = .resyncPending then some (f.frame.counter, f.arrival) else (keyAt s i).resync } s))) := by
  have pending : (if r = .resyncPending then some (f.frame.counter, f.arrival) else none).or (keyAt s i).resync =
      if r = .resyncPending then some (f.frame.counter, f.arrival) else (keyAt s i).resync := by
    split <;> rfl
  rw [← pending]
  rfl

theorem Settled.judge {f : StampedFrame} (h : Settled s) : Settled (judge f s) := by
  cases found : findIdentity s f.frame.identity with
  | none =>
    rw [judge_unknown found]
    exact h.of_runs h.1 rfl
  | some j =>
    by_cases marked : (keyAt s j).marker = .linkChange
    · rw [judge_waiting found marked]
      exact h.of_runs h.1 rfl
    · cases v : verdict (keyAt s j) f with
      | reject r =>
        rw [judge_rejected found marked v]
        exact h.of_runs h.1 rfl
      | accept =>
        rw [judge_accepted found marked v]
        exact h.of_runs h.1 rfl

end

/-- Settles O56. -/
theorem writesMergeStartAndComplete : Obligations.WritesMergeStartAndComplete := by
  refine ⟨fun id c w s => ⟨fun here => ⟨offer_mergedIds c w here, fun e => offer_merged c w⟩, offer_appends c w, offer_nodup c w,
      fun p => offer_repair c w⟩,
    fun e rest s power scan free queue => ?queued, fun id c rest s power scan free queue repair => ?repair,
    fun e s power rests flight => ?complete, fun e s power flight => exec_storeWriteComplete power flight⟩
  case queued => exact (event_running writeStart power).trans (congrArg _ (writeStart_queued scan free queue))
  case repair => exact (event_running writeStart power).trans (congrArg _ (writeStart_repair scan free queue repair))
  case complete =>
    intro s1
    have rests1 : Settled s1 := rests.of_runs rests.1 rfl
    have told : ∀ {w}, e.waiters = [w] → Settled (tellWaiter s1 w) → exec .storeWriteComplete s = .next (tellWaiter s1 w) :=
      exec_storeWriteComplete_one power flight
    refine ⟨exec_storeWriteComplete_none power rests flight, fun one => told one (rests1.reply _ _),
      fun one => told one (rests1.reply _ _), fun i one => ?change, fun d one => told one rests1, fun n one next => ?default⟩
    case change =>
      intro s2
      have rests2 : Settled s2 := rests1.of_runs rests1.1 rfl
      refine ⟨fun none => ?_, fun f waits => ?_⟩
      · have same : tellWaiter s1 (.linkChange i) = s2 := matchResumed_none (s := s2) none
        rw [← same]
        exact told one (by rw [same]; exact rests2)
      · intro gives
        have same : tellWaiter s1 (.linkChange i) = judge f s2 := matchResumed_judges (s := s2) waits
        have judged : exec .storeWriteComplete s = .next (judge f s2) := by
          rw [← same]
          exact told one (by rw [same]; exact rests2.judge)
        refine ⟨fun unknown => judged.trans (congrArg _ (judge_unknown unknown)), fun j found => ?_⟩
        intro k
        refine ⟨fun marked => judged.trans (congrArg _ (judge_waiting found marked)), fun r free v => ?_, fun free v => ?_⟩
        · exact judged.trans (congrArg _ ((judge_rejected found free v).trans (reject_eq f r)))
        · exact judged.trans (congrArg _ (judge_accepted found free v))
    case default =>
      have same : tellWaiter s1 .chainsDefault = persistDefault (n + 1) s1 := tellWaiter_chainsDefault next
      refine ⟨?_, fun p => persistDefault_queued, fun last => ?_⟩
      · rw [← same]
        exact told one (by rw [same]; exact rests1.persistDefault _)
      · subst last
        exact persistDefault_ends (by decide)

end Sys2Proof.Machine

/-! An accepted command, carried out once its counter is stored (01, R6; 02, R27 to R30). -/

namespace Sys2Proof.Machine

open Sys2Proof

/-! ### The key change that waits for a marker -/

theorem changed_stored (k : KeyRecord) (m : Marker) (v : KeyChange) :
    (changed { k with marker := m } v).stored = (changed k v).stored := by cases v <;> rfl

theorem changed_marked (k : KeyRecord) (m n : Marker) (v : KeyChange) :
    { changed { k with marker := m } v with marker := n } = { changed k v with marker := n } := by cases v <;> rfl

/-- The state in which a waiting change begins. -/
def unwaiting (x : State) : State := { x with keys := { x.keys with waiting := none } }

section
variable {i : Fin 8} {x : State}

theorem beginWaiting_none (h : ∀ v, x.keys.waiting ≠ some (i, v)) : beginWaiting i x = x := by
  unfold beginWaiting
  split
  · rfl
  · next j v e =>
    refine if_neg fun same => ?_
    subst same
    exact h v e

theorem beginWaiting_begins {v : KeyChange} (h : x.keys.waiting = some (i, v)) :
    beginWaiting i x = beginChange i v (unwaiting x) := by
  unfold beginWaiting
  rw [h]
  exact if_pos rfl

/-! ### The command carried out -/

variable {f : StampedFrame}

theorem counterStored_carries (h : x.entry.processing = some { stamped := f, stage := .accepted i }) :
    counterStored i x = carryOut i f x := by
  unfold counterStored
  rw [h]
  exact if_pos rfl

/-- The firing of a command by its key. -/
def fobFiring (i : Fin 8) (c : FobCommand) (x : State) : Firing :=
  { trigger := fobTrigger c
    carried := { origin := driverAperture x, role := (keyAt x i).stored.role, slot := some i,
                 profile := some (keyAt x i).stored.profile }
    holdMark := isHold c
    request := none }

/-- The end of a command: its result is the latest access. -/
def commandEnded (i : Fin 8) (c : FobCommand) (y : AccessResult) (x : State) : State :=
  setProcessing none (writeAccess i (accessOfFob c) y x)

/-- A held command that its key, or the power mode, does not permit. -/
def holdRefused (i : Fin 8) (c : FobCommand) (x : State) : Prop :=
  isHold c = true ∧ ((keyAt x i).stored.profile.comfortWindows = false ∨ x.vehicle.powerMode ≠ .off)

theorem carryOut_eq : carryOut i f x =
    if isHold f.frame.command && (!(keyAt x i).stored.profile.comfortWindows || x.vehicle.powerMode ≠ .off) then
      commandEnded i f.frame.command .notPermitted x
    else commandEnded i f.frame.command (resultOfAnswer (fire (fobFiring i f.frame.command x) x).2)
      (fire (fobFiring i f.frame.command x) x).1 := rfl

theorem holdRefused_iff {c : FobCommand} : holdRefused i c x ↔
    (isHold c && (!(keyAt x i).stored.profile.comfortWindows || x.vehicle.powerMode ≠ .off)) = true := by
  simp [holdRefused]

theorem carryOut_refused (h : holdRefused i f.frame.command x) :
    carryOut i f x = commandEnded i f.frame.command .notPermitted x := carryOut_eq.trans (if_pos (holdRefused_iff.1 h))

theorem carryOut_fires (h : ¬holdRefused i f.frame.command x) : carryOut i f x =
    commandEnded i f.frame.command (resultOfAnswer (fire (fobFiring i f.frame.command x) x).2)
      (fire (fobFiring i f.frame.command x) x).1 := carryOut_eq.trans (if_neg fun k => h (holdRefused_iff.2 k))

end

theorem isHold_iff (c : FobCommand) : isHold c = true ↔ c = .holdClose ∨ c = .holdOpen := by
  cases c <;> simp [isHold]

/-! ### The change goes on after the command -/

section
variable {i : Fin 8} {s x : State} (keys : x.keys = (setKey i { keyAt s i with marker := .none } s).keys)
include keys

theorem waiting_after : x.keys.waiting = s.keys.waiting := by
  rw [keys]
  rfl

theorem keyAt_after : keyAt (unwaiting x) i = { keyAt s i with marker := .none } := by
  show look x.keys.recs i = _
  rw [keys]
  exact keyAt_setKey_same i _ s

theorem beginWaiting_still (h : ∀ v, s.keys.waiting ≠ some (i, v)) : beginWaiting i x = x :=
  beginWaiting_none (by rw [waiting_after keys]; exact h)

variable {v : KeyChange} (h : s.keys.waiting = some (i, v))
include h

theorem beginWaiting_changes : beginWaiting i x = beginChange i v (unwaiting x) :=
  beginWaiting_begins ((waiting_after keys).trans h)

theorem beginWaiting_refused {st : Status} (k : keyCheck (unwaiting x) i v = some st) :
    beginWaiting i x = reply st [] (unwaiting x) := (beginWaiting_changes keys h).trans (beginChange_refused k)

section
variable (k : keyCheck (unwaiting x) i v = none)
include k

theorem beginWaiting_nothing (same : nothingToChange (keyAt (unwaiting x) i) v = true) :
    beginWaiting i x = reply .ok [] (unwaiting x) := (beginWaiting_changes keys h).trans (beginChange_nothing k same)

theorem beginWaiting_made (new : nothingToChange (keyAt (unwaiting x) i) v = false) :
    beginWaiting i x = offer (.key i) (.key (changed (keyAt s i) v).stored) [.linkChange i]
      (setKey i { changed (keyAt s i) v with marker := .linkChange } (unwaiting x)) := by
  rw [beginWaiting_changes keys h, beginChange_made k new, keyAt_after keys, changed_stored, changed_marked]

end

end

/-- Settles O57. -/
theorem acceptedCommandsAwaitTheirCounter : Obligations.AcceptedCommandsAwaitTheirCounter := by
  refine ⟨⟨rfl, rfl, rfl, rfl, rfl, isHold_iff, rfl, rfl, rfl⟩, ?_⟩
  intro i e f s power flight one accepted c k s1 ended refused gives goesOn
  have told : tellWaiter (stored e s) (.counterPersist i) = beginWaiting i (carryOut i f s1) :=
    congrArg (beginWaiting i) (counterStored_carries (x := s1) accepted)
  have meaning : gives (beginWaiting i (carryOut i f s1)) := by
    refine (exec_storeWriteComplete power flight).trans ?_
    rw [one, List.foldl_cons, List.foldl_nil, told]
  have goes : ∀ x, carryOut i f s1 = x → x.keys = (setKey i { keyAt s i with marker := .none } s).keys → goesOn x := by
    intro x carried keys
    rw [carried] at meaning
    refine ⟨fun none => ?_, fun v waits => ⟨keyAt_after keys, fun st fails => ?_, fun passes same => ?_, fun passes new => ?_⟩⟩
    · rwa [beginWaiting_still keys none] at meaning
    · rwa [beginWaiting_refused keys waits fails] at meaning
    · rwa [beginWaiting_nothing keys waits passes same] at meaning
    · rwa [beginWaiting_made keys waits passes new] at meaning
  have key : keyAt s1 i = { keyAt s i with marker := .none } := keyAt_setKey_same i _ _
  have asked : refused ↔ holdRefused i c s1 := by
    rw [holdRefused, key]
    rfl
  refine ⟨fun no => goes _ (carryOut_refused (asked.1 no)) rfl, fun yes => ?_⟩
  have firing : fobFiring i c s1 = {
      trigger := fobTrigger c
      carried := { origin := driverAperture s, role := k.role, slot := some i, profile := some k.profile }
      holdMark := isHold c
      request := none } := by
    rw [fobFiring, key]
    rfl
  intro r
  have carried := carryOut_fires (mt asked.2 yes)
  rw [firing] at carried
  exact goes _ carried (fire_moves _ s1).kept.keys

end Sys2Proof.Machine
